-- ==== Sys2Proof/Word.lean ====
section
/-! DEFINITION. The word and byte types of the host window and of the two outbound buses (00_scope.md R6, 20_memory.md R40). -/

namespace Sys2Proof

/-- A 32-bit register or RegisterBus value (R6: every scalar is 32 bits wide unless a rule says otherwise). -/
abbrev Word := BitVec 32

/-- An 8-bit value of the control bus, and every 8-bit field of an encoding. -/
abbrev Byte := BitVec 8

/-- A PllId as the encodings carry it: 8 bits (30_encoding.md R61, R63). -/
abbrev PllId := BitVec 8

/-- A host core, identified by its mailbox; the window has room for eight (10_state.md R35, R36). -/
abbrev Core := Fin 8

/-- The five `ARG` or five `RES` registers of one mailbox (10_state.md R10). -/
abbrev Regs5 := Vector Word 5

/-- A flag as the low bit of a word, all other bits 0. -/
def bit (b : Bool) : Word := if b then 1 else 0

end Sys2Proof
end

