-- ==== Sys2Proof/Syntax.lean ====
section
/-! DEFINITION. The sixteen ops of 30_encoding.md R62, one constructor per row of opcode_table.json, with the operands of
their formats (R61): the fields of `imm` and the `ARG` registers the format names, each as the unsigned number its bits spell
(R64). -/

namespace Sys2Proof

/-- An op with its operands. -/
inductive Instr where
  /-- `SET_CPU_FREQ freq_mhz`, format F (40_clocktree.md R94). -/
  | setCpuFreq (freqMhz : Word)
  /-- `GET_CPU_FREQ`, format N (40_clocktree.md R95). -/
  | getCpuFreq
  /-- `PLL_ADD_CONSUMER id`, format I (41_pll.md R109). -/
  | pllAddConsumer (id : PllId)
  /-- `PLL_REMOVE_CONSUMER id`, format I (41_pll.md R110). -/
  | pllRemoveConsumer (id : PllId)
  /-- `ENTER_SLEEP`, format E (42_sleep.md R135). -/
  | enterSleep (deep : Bool) (wakeup reject modeFlags pdFlags adjustUs : Word)
  /-- `CFG_PWR_MODE_DEFAULTS k`, format M (42_sleep.md R136). -/
  | cfgPwrModeDefaults (k : BitVec 3)
  /-- `RESOLVE freq_mhz`, format F (40_clocktree.md R82). -/
  | resolve (freqMhz : Word)
  /-- `SET_CONFIG`, format C: the four registers of a ClockConfig (40_clocktree.md R90, 30_encoding.md R65). -/
  | setConfig (source sourceFreqMhz divider freqMhz : Word)
  /-- `PLL_ENABLE id`, format I (41_pll.md R102). -/
  | pllEnable (id : PllId)
  /-- `PLL_CFG_CAL id, xtal, target`, format P (41_pll.md R104). -/
  | pllCfgCal (id : PllId) (xtalFreqMhz targetFreqMhz : Word)
  /-- `PLL_DISABLE id`, format I (41_pll.md R107). -/
  | pllDisable (id : PllId)
  /-- `BUILD_PARAMS`, format B (42_sleep.md R122). -/
  | buildParams (modeFlags pdFlags adjustUs : Word)
  /-- `PROGRAM`, format N (42_sleep.md R128). -/
  | program
  /-- `ENTER`, format S (42_sleep.md R130). -/
  | enter (deep : Bool) (wakeup reject : Word)
  /-- `REGDMA_EN`, format N (42_sleep.md R133). -/
  | regdmaEn
  /-- `REGDMA_DIS`, format N (42_sleep.md R134). -/
  | regdmaDis
deriving DecidableEq, Repr, Inhabited

end Sys2Proof
end

