-- ==== Sys2Proof/Decode.lean ====
section
/-! DEFINITION. The decoder of command words with their `ARG` operands (30_encoding.md R60 to R69), total, rejecting by name,
and the encoder, from the same table. -/

namespace Sys2Proof

/-- Why a command word is illegal (30_encoding.md R68). -/
inductive IllegalWord where
  /-- The opcode is not one of the sixteen. -/
  | unknownOpcode (op : Byte)
  /-- A bit of `imm` that the op's format does not name is 1. -/
  | reservedImm (op : Byte) (imm : BitVec 24)
deriving DecidableEq, Repr

/-- An encoded op: the command word and the five operand registers (R60, R61). -/
structure Encoded where
  cmd : Word
  arg : Regs5
deriving DecidableEq, Repr

/-- `op = cmd[31:24]` (R60). -/
def opcodeOf (cmd : Word) : Byte := cmd.extractLsb' 24 8

/-- `imm = cmd[23:0]` (R60). -/
def immOf (cmd : Word) : BitVec 24 := cmd.extractLsb' 0 24

/-- The command word of an opcode and an immediate (R60). -/
def commandWord (op : Byte) (imm : BitVec 24) : Word := op ++ imm

/-- The decoding of an op whose `imm` names no field (formats N, F, C, B of R61). -/
def decodePlain (cmd : Word) (i : Instr) : Except IllegalWord Instr :=
  if immOf cmd = 0 then .ok i else .error (.reservedImm (opcodeOf cmd) (immOf cmd))

/-- The decoding of an op with `id = imm[7:0]` (formats I and P). -/
def decodeId (cmd : Word) (i : PllId → Instr) : Except IllegalWord Instr :=
  if (immOf cmd).extractLsb' 8 16 = 0 then .ok (i ((immOf cmd).extractLsb' 0 8))
  else .error (.reservedImm (opcodeOf cmd) (immOf cmd))

/-- The decoding of an op with `deep = imm[0]` (formats S and E). -/
def decodeDeep (cmd : Word) (i : Bool → Instr) : Except IllegalWord Instr :=
  if (immOf cmd).extractLsb' 1 23 = 0 then .ok (i ((immOf cmd).getLsbD 0))
  else .error (.reservedImm (opcodeOf cmd) (immOf cmd))

/-- The decoding of an op with `k = imm[2:0]` (format M). -/
def decodeMode (cmd : Word) (i : BitVec 3 → Instr) : Except IllegalWord Instr :=
  if (immOf cmd).extractLsb' 3 21 = 0 then .ok (i ((immOf cmd).extractLsb' 0 3))
  else .error (.reservedImm (opcodeOf cmd) (immOf cmd))

/-- The decoder (R62, R68): the op is selected by the opcode alone, then the reserved bits of its format are checked. -/
def decode (cmd : Word) (a : Regs5) : Except IllegalWord Instr :=
  match (opcodeOf cmd).toNat with
  | 0x01 => decodePlain cmd (.setCpuFreq a[0])
  | 0x02 => decodePlain cmd .getCpuFreq
  | 0x03 => decodeId cmd .pllAddConsumer
  | 0x04 => decodeId cmd .pllRemoveConsumer
  | 0x05 => decodeDeep cmd fun deep => .enterSleep deep a[0] a[1] a[2] a[3] a[4]
  | 0x06 => decodeMode cmd .cfgPwrModeDefaults
  | 0x10 => decodePlain cmd (.resolve a[0])
  | 0x11 => decodePlain cmd (.setConfig a[0] a[1] a[2] a[3])
  | 0x20 => decodeId cmd .pllEnable
  | 0x21 => decodeId cmd fun id => .pllCfgCal id a[0] a[1]
  | 0x22 => decodeId cmd .pllDisable
  | 0x30 => decodePlain cmd (.buildParams a[0] a[1] a[2])
  | 0x31 => decodePlain cmd .program
  | 0x32 => decodeDeep cmd fun deep => .enter deep a[0] a[1]
  | 0x33 => decodePlain cmd .regdmaEn
  | 0x34 => decodePlain cmd .regdmaDis
  | _ => .error (.unknownOpcode (opcodeOf cmd))

/-- The immediate of a PllId (formats I and P). -/
def immId (id : PllId) : BitVec 24 := (0 : BitVec 16) ++ id

/-- The immediate of `deep` (formats S and E). -/
def immDeep (deep : Bool) : BitVec 24 := if deep then 1 else 0

/-- The immediate of a mode index (format M). -/
def immMode (k : BitVec 3) : BitVec 24 := (0 : BitVec 21) ++ k

/-- The encoder: the words of an op (R60 to R62); an `ARG` register its format does not name is 0. -/
def encode : Instr → Encoded
  | .setCpuFreq f => { cmd := commandWord 0x01 0, arg := #v[f, 0, 0, 0, 0] }
  | .getCpuFreq => { cmd := commandWord 0x02 0, arg := #v[0, 0, 0, 0, 0] }
  | .pllAddConsumer id => { cmd := commandWord 0x03 (immId id), arg := #v[0, 0, 0, 0, 0] }
  | .pllRemoveConsumer id => { cmd := commandWord 0x04 (immId id), arg := #v[0, 0, 0, 0, 0] }
  | .enterSleep deep wk rj mf pd adj => { cmd := commandWord 0x05 (immDeep deep), arg := #v[wk, rj, mf, pd, adj] }
  | .cfgPwrModeDefaults k => { cmd := commandWord 0x06 (immMode k), arg := #v[0, 0, 0, 0, 0] }
  | .resolve f => { cmd := commandWord 0x10 0, arg := #v[f, 0, 0, 0, 0] }
  | .setConfig src sf d f => { cmd := commandWord 0x11 0, arg := #v[src, sf, d, f, 0] }
  | .pllEnable id => { cmd := commandWord 0x20 (immId id), arg := #v[0, 0, 0, 0, 0] }
  | .pllCfgCal id xtal target => { cmd := commandWord 0x21 (immId id), arg := #v[xtal, target, 0, 0, 0] }
  | .pllDisable id => { cmd := commandWord 0x22 (immId id), arg := #v[0, 0, 0, 0, 0] }
  | .buildParams mf pd adj => { cmd := commandWord 0x30 0, arg := #v[mf, pd, adj, 0, 0] }
  | .program => { cmd := commandWord 0x31 0, arg := #v[0, 0, 0, 0, 0] }
  | .enter deep wk rj => { cmd := commandWord 0x32 (immDeep deep), arg := #v[wk, rj, 0, 0, 0] }
  | .regdmaEn => { cmd := commandWord 0x33 0, arg := #v[0, 0, 0, 0, 0] }
  | .regdmaDis => { cmd := commandWord 0x34 0, arg := #v[0, 0, 0, 0, 0] }

/-- One row of opcode_table.json: a word is the op's exactly when its bits under `mask` are `bits`; the mask holds the opcode and
the reserved bits of the format (R62). -/
structure OpcodeRow where
  mask : Word
  bits : Word
deriving DecidableEq, Repr

/-- The table row of an op. -/
def opcodeRow : Instr → OpcodeRow
  | .setCpuFreq _ => { mask := 0xFFFFFFFF, bits := 0x01000000 }
  | .getCpuFreq => { mask := 0xFFFFFFFF, bits := 0x02000000 }
  | .pllAddConsumer _ => { mask := 0xFFFFFF00, bits := 0x03000000 }
  | .pllRemoveConsumer _ => { mask := 0xFFFFFF00, bits := 0x04000000 }
  | .enterSleep _ _ _ _ _ _ => { mask := 0xFFFFFFFE, bits := 0x05000000 }
  | .cfgPwrModeDefaults _ => { mask := 0xFFFFFFF8, bits := 0x06000000 }
  | .resolve _ => { mask := 0xFFFFFFFF, bits := 0x10000000 }
  | .setConfig _ _ _ _ => { mask := 0xFFFFFFFF, bits := 0x11000000 }
  | .pllEnable _ => { mask := 0xFFFFFF00, bits := 0x20000000 }
  | .pllCfgCal _ _ _ => { mask := 0xFFFFFF00, bits := 0x21000000 }
  | .pllDisable _ => { mask := 0xFFFFFF00, bits := 0x22000000 }
  | .buildParams _ _ _ => { mask := 0xFFFFFFFF, bits := 0x30000000 }
  | .program => { mask := 0xFFFFFFFF, bits := 0x31000000 }
  | .enter _ _ _ => { mask := 0xFFFFFFFE, bits := 0x32000000 }
  | .regdmaEn => { mask := 0xFFFFFFFF, bits := 0x33000000 }
  | .regdmaDis => { mask := 0xFFFFFFFF, bits := 0x34000000 }

/-- The sixteen rows of opcode_table.json, in its order. -/
def opcodeTable : List OpcodeRow :=
  [⟨0xFFFFFFFF, 0x01000000⟩, ⟨0xFFFFFFFF, 0x02000000⟩, ⟨0xFFFFFF00, 0x03000000⟩, ⟨0xFFFFFF00, 0x04000000⟩,
    ⟨0xFFFFFFFE, 0x05000000⟩, ⟨0xFFFFFFF8, 0x06000000⟩, ⟨0xFFFFFFFF, 0x10000000⟩, ⟨0xFFFFFFFF, 0x11000000⟩,
    ⟨0xFFFFFF00, 0x20000000⟩, ⟨0xFFFFFF00, 0x21000000⟩, ⟨0xFFFFFF00, 0x22000000⟩, ⟨0xFFFFFFFF, 0x30000000⟩,
    ⟨0xFFFFFFFF, 0x31000000⟩, ⟨0xFFFFFFFE, 0x32000000⟩, ⟨0xFFFFFFFF, 0x33000000⟩, ⟨0xFFFFFFFF, 0x34000000⟩]

/-- The command word of an instruction whose low `nbits` bits are those of `w` and whose other bits are 0; the operand words
of such an instruction are zeros. -/
def tableCommand (nbits w : Nat) : Word := BitVec.ofNat 32 (w % 2 ^ nbits)

/-- The instruction the decoder reads from an instruction whose bits are `w` (numbered as opcode_table.json numbers them),
with operand registers of zeros. -/
def decodeTableWord (nbits w : Nat) : Option Instr :=
  match decode (tableCommand nbits w) (Vector.replicate 5 0) with
  | .ok i => some i
  | .error _ => none

end Sys2Proof
end

