-- ==== Sys2Proof/Config.lean ====
section
/-! DEFINITION. What an implementation fixes: the parameter record `Cfg` of 00_scope.md R5, the spec's example set EX40
with MC40 (95_test_vectors.md section 1), the names of the outbound fields and status inputs (10_state.md R37, R38), the
actions of the agents (60_exceptions.md R171), and the free values: opaque constants that nothing can evaluate. -/

namespace Sys2Proof

/-- A clock source, `{Crystal, Pll(PllId), FastRc}` (10_state.md R13). -/
inductive ClockSource where
  | crystal
  | pll (id : PllId)
  | fastRc
deriving DecidableEq, Repr, Inhabited

/-- A divider `int + num/den`, or `int` when `den = 0` (10_state.md R13). -/
structure Fraction where
  int : Byte
  num : Byte
  den : Byte
deriving DecidableEq, Repr, Inhabited

/-- A clock configuration (10_state.md R13). -/
structure ClockConfig where
  source : ClockSource
  sourceFreqMhz : Word
  divider : Fraction
  freqMhz : Word
deriving DecidableEq, Repr, Inhabited

/-- The buses that can carry a divider, from the source outward (40_clocktree.md R84). -/
inductive Bus where
  | cpu | ahb | mem | sys | apb
deriving DecidableEq, Repr, Inhabited

/-- `BUSES` and `F_MAX` in one: a bus the chip does not have is `none`, the CPU is always there (00_scope.md R5). -/
structure BusLimits where
  cpu : Word
  ahb : Option Word
  mem : Option Word
  sys : Option Word
  apb : Option Word
deriving DecidableEq, Repr, Inhabited

/-- One divider value per bus other than the CPU (10_state.md R14, 40_clocktree.md R86). -/
structure BusDivs where
  ahb : Word
  mem : Word
  sys : Word
  apb : Word
deriving DecidableEq, Repr, Inhabited

/-- `DIV_ROUND` (40_clocktree.md R81). -/
inductive DivRound where
  | exact
  | nearest
deriving DecidableEq, Repr, Inhabited

/-- The five words of a power mode, in the order of 10_state.md R21. -/
structure ModeParams where
  pwr : Word
  ckg : Word
  ana : Word
  pad : Word
  ret : Word
deriving DecidableEq, Repr, Inhabited

/-- The `MC.lp` fields of 10_state.md R24. -/
structure LpConstants where
  minSleepTimeUs : Word
  analogWaitUs : Word
  xtalStableWaitUs : Word
  clkPowerOnWaitCycles : Word
  clockSwitchWaitUs : Word
  powerSupplyWaitUs : Word
  powerUpWaitUs : Word
deriving DecidableEq, Repr, Inhabited

/-- The `MC.hp` fields of 10_state.md R24; the last two are read by no rule. -/
structure HpConstants where
  analogWaitUs : Word
  powerUpWaitUs : Word
  regdmaWaitUs : Word
  xtalStableWaitUs : Word
  pllStableWaitUs : Word
  modemWakeupWaitUs : Word
  clockDomainSyncTimeUs : Word
  rfOnProtectTimeUs : Word
  isolateReleaseWaitUs : Word
  resetReleaseWaitUs : Word
deriving DecidableEq, Repr, Inhabited

/-- Every quantity the spec leaves to the chip (00_scope.md R5). It is configuration: no action changes it (R8).
`busDivsTable` is the chip's own `bus_divs` where it supplies one (40_clocktree.md R86): the entry of the first pair whose
configuration is the one asked for; a configuration it does not list has the default instance. -/
structure Cfg where
  xtalFreqMhz : Word
  fastRcFreqMhz : Word
  nPll : Nat
  pllTable : List ClockConfig
  legalXtalDivs : List Nat
  legalRcDivs : List Nat
  hasFracDiv : Bool
  divRound : DivRound
  limits : BusLimits
  busDivsTable : List (ClockConfig × BusDivs)
  calTimeoutPolls : Nat
  auxIdleBound : Nat
  hasModemMode : Bool
  pmtDefault : Vector ModeParams 5
  backupDefault : Vector Word 3
  lp : LpConstants
  hp : HpConstants
  nCores : Nat
  cscBase : Word
deriving DecidableEq, Repr

/-- The five words of a ModeParams record, as the names of its outbound fields (10_state.md R37). -/
inductive ModeWord where
  | pwr | ckg | ana | pad | ret
deriving DecidableEq, Repr, Inhabited

/-- The retention backup edges A2S, S2A, M2A (10_state.md R22). -/
inductive Edge where
  | a2s | s2a | m2a
deriving DecidableEq, Repr, Inhabited

/-- The seven fields of a SleepBudget (10_state.md R26); as outbound fields they are `WAIT_LP`, `WAIT_HP`, `WAIT_XTAL`,
`WAIT_PLL`, `WAIT_MODEM`, `WAIT_REGDMA` and `GUARD_US` (10_state.md R37). -/
inductive BudgetField where
  | lpWait | hpWait | xtalStableWait | pllStableWait | modemWakeupWait | regdmaWait | totalGuardTime
deriving DecidableEq, Repr, Inhabited

/-- The outbound fields on the RegisterBus, targets of `W` events (10_state.md R37). -/
inductive RegField where
  | muxSel
  | div (b : Bus)
  | pllPwr (id : PllId)
  | pllDiv (id : PllId)
  | hp (w : ModeWord)
  | lp (w : ModeWord)
  | pdFlags
  | bkp (e : Edge)
  | wait (f : BudgetField)
  | regdmaBackupEn
  | wakeType
  | wakeEn
  | rejectEn
  | intClr
  | sleepStart
deriving DecidableEq, Repr, Inhabited

/-- The outbound fields on the control bus, targets of `B` events (10_state.md R37). -/
inductive BusField where
  | calStart (id : PllId)
  | calStop (id : PllId)
deriving DecidableEq, Repr, Inhabited

/-- The status inputs a poll reads (10_state.md R38). -/
inductive StatusInput where
  | calDone (id : PllId)
  | auxIdle
  | intStatus
deriving DecidableEq, Repr, Inhabited

/-- One outbound access, as the trace records it (00_scope.md section 5.2). -/
inductive Event where
  | w (f : RegField) (v : Word)
  | b (f : BusField) (v : Byte)
  | r (i : StatusInput) (v : Word)
deriving DecidableEq, Repr, Inhabited

/-- A bit range `[hi:lo]` of a value of `w` bits, all of it inside the value (20_memory.md R45). -/
structure BitRange (w : Nat) where
  hi : Fin w
  lo : Fin w
  ordered : lo ≤ hi
deriving DecidableEq, Repr

/-- A place on the RegisterBus: a whole aligned 32-bit word, named by the 30 bits of its address above the two that are 0,
optionally a bit range of it (20_memory.md R40, R41, R45). No other place can be written down. -/
structure RegLocation where
  word : BitVec 30
  range : Option (BitRange 32)
deriving DecidableEq, Repr, Inhabited

/-- A place on the control bus: the byte of a pair `(dev, reg)`, optionally a bit range of it (20_memory.md R40, R45). -/
structure CtlLocation where
  dev : Byte
  reg : Byte
  range : Option (BitRange 8)
deriving DecidableEq, Repr, Inhabited

/-- A place of a status input: on either bus, as the chip has it (20_memory.md R47). -/
inductive PollLocation where
  | reg (loc : RegLocation)
  | ctl (loc : CtlLocation)
deriving DecidableEq, Repr, Inhabited

/-- What one step of the system can be: the actions (a) to (f) of 60_exceptions.md R171, and RESET
(70_reset_and_hazards.md R180). Which of them comes next is free (R8).
`hostWrite` and `hostRead` are accesses of `bytes` bytes at a 32-bit address; `sequencer` is the next micro-step of the
running sequenced op, with the environment's answer should that micro-step poll `CAL_DONE` or `AUX_IDLE`
(10_state.md R38: free at every poll); `wakeTrigger` to `hpDone` are the hardware micro-steps of 42_sleep.md R140. -/
inductive Action where
  | hostWrite (addr : Word) (bytes : Nat) (value : Word)
  | hostRead (addr : Word) (bytes : Nat)
  | accept (core : Core)
  | sequencer (answer : Bool)
  | wakeTrigger
  | lpTick
  | lpDone
  | hpTick
  | hpDone
  | setWakeLines (lines : Word)
  | setRejectLines (lines : Word)
  | addCycles (n : Word)
  | reset
deriving DecidableEq, Repr, Inhabited

namespace Config

/-- FREE VALUE. The action taken when the agenda is empty (60_exceptions.md R171: chosen non-deterministically). Log 2. -/
opaque arbiter : Nat → Action

/-- FREE VALUE. `pll_div_words(id, xtal, target)`: OPEN, uninterpreted (00_scope.md R5). Log 16. -/
opaque pllDivWords : PllId → Word → Word → Word

/-- FREE VALUE. `REGMAP` of the RegisterBus fields: OPEN, uninterpreted (00_scope.md R5). Log 16. -/
opaque regLocation : RegField → RegLocation

/-- FREE VALUE. `REGMAP` of the control-bus fields. Log 16. -/
opaque busLocation : BusField → CtlLocation

/-- FREE VALUE. `REGMAP` of the status inputs. Log 16. -/
opaque pollLocation : StatusInput → PollLocation

/-- FREE VALUE. A quotient by 0, which the spec's guards exclude (40_clocktree.md R97, 42_sleep.md R127) but for a
`LP_CLK_FREQ_HZ` cleared while an op runs. Log 11. -/
opaque divByZero : Nat → Nat

/-- FREE VALUE. A SleepBudget field whose value does not fit in 32 bits at the build micro-step, although it did when the op
was accepted. Log 11. -/
opaque budgetBeyond32 : Nat → Word

/-- MC40, the `lp` half (95_test_vectors.md section 1.3). -/
def mc40Lp : LpConstants where
  minSleepTimeUs := 450
  analogWaitUs := 154
  xtalStableWaitUs := 250
  clkPowerOnWaitCycles := 1
  clockSwitchWaitUs := 1
  powerSupplyWaitUs := 2
  powerUpWaitUs := 2

/-- MC40, the `hp` half (95_test_vectors.md section 1.3). -/
def mc40Hp : HpConstants where
  analogWaitUs := 154
  powerUpWaitUs := 2
  regdmaWaitUs := 40
  xtalStableWaitUs := 250
  pllStableWaitUs := 1
  modemWakeupWaitUs := 20
  clockDomainSyncTimeUs := 150
  rfOnProtectTimeUs := 30
  isolateReleaseWaitUs := 2
  resetReleaseWaitUs := 2

/-- The PLL entry `{Pll(0), 480, d, f}` of EX40. -/
def ex40Entry (d : Byte) (f : Word) : ClockConfig :=
  { source := .pll 0, sourceFreqMhz := 480, divider := { int := d, num := 0, den := 0 }, freqMhz := f }

/-- The example parameter set EX40 with MC40 (95_test_vectors.md sections 1.1 to 1.3), the one `State.reset` takes. DESIGN
CHOICE, unsafe: the spec gives no chip's values. Log 1. -/
def ex40 : Cfg where
  xtalFreqMhz := 40
  fastRcFreqMhz := 20
  nPll := 1
  pllTable := [ex40Entry 6 80, ex40Entry 3 160, ex40Entry 2 240]
  legalXtalDivs := [1, 2, 4, 5, 8, 10, 20, 40]
  legalRcDivs := [1, 2]
  hasFracDiv := false
  divRound := .exact
  limits := { cpu := 240, ahb := some 80, mem := some 80, sys := some 80, apb := some 40 }
  busDivsTable := []
  calTimeoutPolls := 3
  auxIdleBound := 4
  hasModemMode := true
  pmtDefault := #v[⟨0x1F, 0, 0x119, 0, 0⟩, ⟨0xF, 0xF0, 0x118, 0, 1⟩, ⟨0x1, 0xFFF, 0x101, 1, 3⟩, ⟨0x7, 0, 0x21A, 0, 0⟩,
    ⟨0x3, 0x30, 0x20C, 1, 0⟩]
  backupDefault := #v[0xA5, 0x5A, 0xC3]
  lp := mc40Lp
  hp := mc40Hp
  nCores := 2
  cscBase := 0x60000000

end Config

end Sys2Proof
end

