-- ==== Sys2Proof/Machine/Operands.lean ====
section
/-! DEFINITION. The operand forms and the arithmetic on configurations: packing and unpacking of ClockSource, Fraction and
ClockConfig (30_encoding.md R63 to R65), flag words (R66, R67), `div_round`, `valid`, the divider chain, `bus_divs`, the write
order of `apply` and `resolve` (40_clocktree.md R81 to R88). Everything here depends on `Cfg` and operands only. -/

namespace Sys2Proof.Machine

/-! ### Numbers -/

/-- `a div b` of 00_scope.md section 5; the spec's guards exclude `b = 0`, where the quotient is a free value (log 11). -/
def natDiv (a b : Nat) : Nat := if b = 0 then Config.divByZero a else a / b

/-- `ceil(a / b)` for `b ≠ 0`. -/
def ceilDiv (a b : Nat) : Nat := (a + (b - 1)) / b

/-- An exact rational number of MHz, `num / den`; never rounded (40_clocktree.md R85). -/
structure Ratio where
  num : Nat
  den : Nat
deriving DecidableEq, Repr, Inhabited

/-- `q ≤ m` for a natural number `m`, on the rationals (R85). -/
def ratioAtMost (q : Ratio) (m : Nat) : Bool := decide (q.num ≤ m * q.den)

/-- `p ≤ q` on the rationals. -/
def ratioLe (p q : Ratio) : Bool := decide (p.num * q.den ≤ q.num * p.den)

/-- `q / d` for a natural number `d`. -/
def ratioDiv (q : Ratio) (d : Nat) : Ratio := { num := q.num, den := q.den * d }

/-! ### ClockSource, Fraction, ClockConfig -/

/-- The ClockSource code (30_encoding.md R63): the value of `MUX_SEL` and of register 0 of a ClockConfig. -/
def sourceCode : ClockSource → Word
  | .crystal => 0
  | .pll id => (id.setWidth 32 <<< 8) ||| 1
  | .fastRc => 2

/-- Decoding of a ClockSource code (R63): `none` for tag 3, a non-zero reserved bit, a non-zero PllId without tag 1, or a
PllId that the chip does not have. -/
def decodeSource (cfg : Cfg) (w : Word) : Option ClockSource :=
  let tag := (w.extractLsb' 0 2).toNat
  let id : PllId := w.extractLsb' 8 8
  if w.extractLsb' 2 6 = 0 ∧ w.extractLsb' 16 16 = 0 then
    if tag = 0 ∧ id = 0 then some .crystal
    else if tag = 1 ∧ id.toNat < cfg.nPll then some (.pll id)
    else if tag = 2 ∧ id = 0 then some .fastRc
    else none
  else none

/-- The packed Fraction (R64). -/
def packFraction (q : Fraction) : Word := (0 : Byte) ++ q.den ++ q.num ++ q.int

/-- The three bytes of a packed Fraction (R64). -/
def unpackFraction (w : Word) : Fraction :=
  { int := w.extractLsb' 0 8, num := w.extractLsb' 8 8, den := w.extractLsb' 16 8 }

/-- A Fraction is well-formed (R64, 10_state.md R13). -/
def fractionOk (cfg : Cfg) (q : Fraction) : Bool :=
  decide (1 ≤ q.int.toNat) &&
    (decide (q.den = 0 ∧ q.num = 0) || (cfg.hasFracDiv && decide (1 ≤ q.den.toNat ∧ q.num.toNat < q.den.toNat)))

/-- Decoding of a packed Fraction: `none` where it is not well-formed (R64). -/
def decodeFraction (cfg : Cfg) (w : Word) : Option Fraction :=
  if w.extractLsb' 24 8 = 0 ∧ fractionOk cfg (unpackFraction w) = true then some (unpackFraction w) else none

/-- The value of a Fraction: `int + num/den`, or `int` when `den = 0` (R64). -/
def fractionValue (q : Fraction) : Ratio :=
  if q.den = 0 then { num := q.int.toNat, den := 1 }
  else { num := q.int.toNat * q.den.toNat + q.num.toNat, den := q.den.toNat }

/-- The integer divider `(d, 0, 0)`. -/
def intFraction (d : Byte) : Fraction := { int := d, num := 0, den := 0 }

/-- A ClockConfig from the four registers of R65: `none` where the source code or the divider does not decode
(40_clocktree.md R83 (a)). -/
def decodeConfig (cfg : Cfg) (r0 r1 r2 r3 : Word) : Option ClockConfig :=
  match decodeSource cfg r0, decodeFraction cfg r2 with
  | some src, some q => some { source := src, sourceFreqMhz := r1, divider := q, freqMhz := r3 }
  | _, _ => none

/-- The configuration `XTAL_NATIVE` (00_scope.md section 6). -/
def xtalNative (cfg : Cfg) : ClockConfig :=
  { source := .crystal, sourceFreqMhz := cfg.xtalFreqMhz, divider := intFraction 1, freqMhz := cfg.xtalFreqMhz }

/-! ### `div_round`, `valid` -/

/-- `div_round(s, v)` (40_clocktree.md R81): `none` where it is undefined. -/
def divRound (cfg : Cfg) (s : Nat) (q : Fraction) : Option Nat :=
  let v := fractionValue q
  if v.num = 0 then none
  else
    match cfg.divRound with
    | .exact => if (s * v.den) % v.num = 0 then some ((s * v.den) / v.num) else none
    | .nearest => some ((2 * s * v.den + v.num) / (2 * v.num))

/-- The divider is an integer of the given set (R83 (c)). -/
def legalIntDiv (divs : List Nat) (q : Fraction) : Bool := decide (q.den = 0) && divs.contains q.int.toNat

/-- `valid(k)` of R83 for a configuration whose registers decode: well-formed fields, (b), and (c) by source. -/
def validConfig (cfg : Cfg) (k : ClockConfig) : Bool :=
  fractionOk cfg k.divider && decide (1 ≤ k.sourceFreqMhz.toNat) && decide (1 ≤ k.freqMhz.toNat) &&
    match k.source with
    | .crystal =>
      decide (k.sourceFreqMhz = cfg.xtalFreqMhz) && legalIntDiv cfg.legalXtalDivs k.divider &&
        decide (divRound cfg cfg.xtalFreqMhz.toNat k.divider = some k.freqMhz.toNat)
    | .pll id => decide (id.toNat < cfg.nPll) && cfg.pllTable.contains k
    | .fastRc =>
      decide (k.sourceFreqMhz = cfg.fastRcFreqMhz) && legalIntDiv cfg.legalRcDivs k.divider &&
        decide (divRound cfg cfg.fastRcFreqMhz.toNat k.divider = some k.freqMhz.toNat)

/-- The ClockConfig of four registers when it is valid (R83), the operand check of SET_CONFIG. -/
def decodeValidConfig (cfg : Cfg) (r0 r1 r2 r3 : Word) : Option ClockConfig :=
  match decodeConfig cfg r0 r1 r2 r3 with
  | some k => if validConfig cfg k then some k else none
  | none => none

/-! ### The divider chain -/

/-- `F_MAX[b]` where the chip has the bus (00_scope.md R5). -/
def busLimit (l : BusLimits) : Bus → Option Word
  | .cpu => some l.cpu
  | .ahb => l.ahb
  | .mem => l.mem
  | .sys => l.sys
  | .apb => l.apb

/-- `chain`: the present buses from the source outward (40_clocktree.md R84). -/
def chain (cfg : Cfg) : List Bus := [Bus.cpu, .ahb, .mem, .sys, .apb].filter fun b => (busLimit cfg.limits b).isSome

/-- The divider value of a bus; the CPU has its own field. -/
def busDiv (d : BusDivs) : Bus → Word
  | .cpu => 1
  | .ahb => d.ahb
  | .mem => d.mem
  | .sys => d.sys
  | .apb => d.apb

/-- One bus divider replaced. -/
def setBusDiv (d : BusDivs) (b : Bus) (v : Word) : BusDivs :=
  match b with
  | .cpu => d
  | .ahb => { d with ahb := v }
  | .mem => { d with mem := v }
  | .sys => { d with sys := v }
  | .apb => { d with apb := v }

/-- The frequency of the CPU: the source over the CPU divider (R85, `f[0]`). -/
def cpuFreq (srcMhz : Word) (q : Fraction) : Ratio :=
  let v := fractionValue q
  { num := srcMhz.toNat * v.den, den := v.num }

/-- One step of the default `bus_divs` (R86): the smallest divider that keeps the bus within its limit, and the frequency it
leaves. An absent bus divides by nothing. -/
def minimalDiv (limit : Option Word) (g : Ratio) : Word × Ratio :=
  match limit with
  | none => (1, g)
  | some m =>
    let d := max 1 (ceilDiv g.num (g.den * m.toNat))
    (BitVec.ofNat 32 d, ratioDiv g d)

/-- The default instance of `bus_divs` (R86), walking the chain outward. -/
def defaultBusDivs (cfg : Cfg) (k : ClockConfig) : BusDivs :=
  let ahb := minimalDiv cfg.limits.ahb (cpuFreq k.sourceFreqMhz k.divider)
  let mem := minimalDiv cfg.limits.mem ahb.2
  let sys := minimalDiv cfg.limits.sys mem.2
  let apb := minimalDiv cfg.limits.apb sys.2
  { ahb := ahb.1, mem := mem.1, sys := sys.1, apb := apb.1 }

/-- `bus_divs(k)`: the chip's own where it supplies one, else the default instance (R86, 00_scope.md R5). -/
def busDivs (cfg : Cfg) (k : ClockConfig) : BusDivs :=
  match cfg.busDivsTable.find? (fun e => decide (e.1 = k)) with
  | some e => e.2
  | none => defaultBusDivs cfg k

/-- The frequencies of the given buses, each dividing the one before it (R85, `f[j]` for `j ≥ 1`). -/
def cascade (d : BusDivs) : Ratio → List Bus → List (Bus × Ratio)
  | _, [] => []
  | g, b :: rest =>
    let f := if b = .cpu then g else ratioDiv g (busDiv d b).toNat
    (b, f) :: cascade d f rest

/-- Every frequency of the chain (R85) for a source frequency, a CPU divider and bus dividers. -/
def chainFreqs (cfg : Cfg) (srcMhz : Word) (q : Fraction) (d : BusDivs) : List (Bus × Ratio) :=
  cascade d (cpuFreq srcMhz q) (chain cfg)

/-- The settled frequencies of a configuration (R85). -/
def settledFreqs (cfg : Cfg) (k : ClockConfig) : List (Bus × Ratio) :=
  chainFreqs cfg k.sourceFreqMhz k.divider (busDivs cfg k)

/-- No bus exceeds its maximum: `f[j] ≤ F_MAX[chain[j]]` (R85, R89). -/
def withinLimits (cfg : Cfg) (fs : List (Bus × Ratio)) : Bool :=
  fs.all fun e =>
    match busLimit cfg.limits e.1 with
    | some m => ratioAtMost e.2 m.toNat
    | none => true

/-! ### The write order of `apply` -/

/-- `up(cur, t)` (R88). -/
def goesUp (cur t : ClockConfig) : Bool :=
  decide (cur.freqMhz.toNat < t.freqMhz.toNat) ||
    (decide (cur.freqMhz = t.freqMhz) && decide (cur.sourceFreqMhz.toNat < t.sourceFreqMhz.toNat))

/-- The select is written before the dividers (R87, `mux_first`). -/
def muxFirst (cur t : ClockConfig) : Bool := decide (t.sourceFreqMhz.toNat < cur.sourceFreqMhz.toNat)

/-- The order in which `apply(t)` writes the dividers (R87, `order`). -/
def divOrder (cfg : Cfg) (cur t : ClockConfig) : List Bus :=
  if goesUp cur t then (chain cfg).reverse else chain cfg

/-- The fields `apply(t)` writes from the applied configuration `cur`, in order (R87). -/
def applyOrder (cfg : Cfg) (cur t : ClockConfig) : List RegField :=
  let divs := (divOrder cfg cur t).map RegField.div
  if muxFirst cur t then .muxSel :: divs else divs ++ [.muxSel]

/-- What the bus frequencies depend on at an instant: the frequency of the selected source and the divider fields (R85). -/
structure ClockPoint where
  srcMhz : Word
  cpuDiv : Fraction
  busDiv : BusDivs
deriving DecidableEq, Repr

/-- The settled point of a configuration (R85). -/
def settledPoint (cfg : Cfg) (k : ClockConfig) : ClockPoint :=
  { srcMhz := k.sourceFreqMhz, cpuDiv := k.divider, busDiv := busDivs cfg k }

/-- A point after one write of `apply(t)` (R87). -/
def pointWrite (cfg : Cfg) (t : ClockConfig) (p : ClockPoint) : RegField → ClockPoint
  | .muxSel => { p with srcMhz := t.sourceFreqMhz }
  | .div .cpu => { p with cpuDiv := t.divider }
  | .div b => { p with busDiv := setBusDiv p.busDiv b (busDiv (busDivs cfg t) b) }
  | _ => p

/-- The point after the first `n` writes of `apply(t)` from the settled configuration `cur` (R89: replaying the writes). -/
def replayPoint (cfg : Cfg) (cur t : ClockConfig) (n : Nat) : ClockPoint :=
  ((applyOrder cfg cur t).take n).foldl (pointWrite cfg t) (settledPoint cfg cur)

/-- The frequencies at a point. -/
def pointFreqs (cfg : Cfg) (p : ClockPoint) : List (Bus × Ratio) := chainFreqs cfg p.srcMhz p.cpuDiv p.busDiv

/-! ### `resolve` -/

/-- The crystal branch of `resolve` (R82): the single candidate divider `XTAL_FREQ_MHZ div f`. -/
def resolveCrystal (cfg : Cfg) (f : Word) : Option ClockConfig :=
  let x := cfg.xtalFreqMhz.toNat
  let d := x / f.toNat
  if 1 ≤ f.toNat ∧ f.toNat ≤ x ∧ d ≤ 255 ∧ cfg.legalXtalDivs.contains d = true ∧
      divRound cfg x (intFraction (BitVec.ofNat 8 d)) = some f.toNat then
    some { source := .crystal, sourceFreqMhz := cfg.xtalFreqMhz, divider := intFraction (BitVec.ofNat 8 d), freqMhz := f }
  else none

/-- `resolve(f)` (R82): the crystal branch, else the first `PLL_TABLE` entry with that frequency; `none` is
`UnsupportedFrequency`, and a frequency of 0 is always that (log 21). -/
def resolve (cfg : Cfg) (f : Word) : Option ClockConfig :=
  match resolveCrystal cfg f with
  | some k => some k
  | none => if f = 0 then none else cfg.pllTable.find? (fun e => decide (e.freqMhz = f))

/-! ### Flag words and indices -/

/-- The chip has this PLL (30_encoding.md R67). -/
def pllIdOk (cfg : Cfg) (id : PllId) : Bool := decide (id.toNat < cfg.nPll)

/-- `mode_flags[1:0]` selects HP Sleep (R66). -/
def targetsSleep (mf : Word) : Bool := decide (mf.extractLsb' 0 2 = 2)

/-- `mode_flags[1:0]` selects HP Modem (R66). -/
def targetsModem (mf : Word) : Bool := decide (mf.extractLsb' 0 2 = 1)

/-- `mode_flags` is legal (R66, 42_sleep.md R122 check (1)). -/
def modeFlagsOk (cfg : Cfg) (mf : Word) : Bool :=
  decide (mf.extractLsb' 5 27 = 0) && (targetsSleep mf || (targetsModem mf && cfg.hasModemMode))

/-- `LP_CLK_XTAL` (R66). -/
def lpClkXtal (mf : Word) : Bool := mf.getLsbD 2

/-- `MODEM_COEX` (R66). -/
def modemCoex (mf : Word) : Bool := mf.getLsbD 3

/-- `LP_SLEEP` (R66). -/
def lpSleep (mf : Word) : Bool := mf.getLsbD 4

/-- `PD_XTAL` of `power_down_flags` (R66). -/
def pdXtal (pd : Word) : Bool := pd.getLsbD 0

/-- The mode index exists (R67): at most 4, and 1 only with the Modem mode. -/
def modeIndexOk (cfg : Cfg) (k : Nat) : Bool := decide (k ≤ 4) && (decide (k ≠ 1) || cfg.hasModemMode)

end Sys2Proof.Machine
end

