-- ==== Sys2Proof/Machine/Budget.lean ====
section
/-! DEFINITION. The sleep wait budget (42_sleep.md R123 to R127): exact natural-number arithmetic, then an explicit narrowing
to 32 bits. -/

namespace Sys2Proof.Machine

/-- The seven computed wait fields (10_state.md R26). -/
structure SleepBudget where
  lpWait : Word
  hpWait : Word
  xtalStableWait : Word
  pllStableWait : Word
  modemWakeupWait : Word
  regdmaWait : Word
  totalGuardTimeUs : Word
deriving DecidableEq, Repr, Inhabited

/-- The same seven fields before narrowing, unbounded (R127). -/
structure WideBudget where
  lpWait : Nat
  hpWait : Nat
  xtalStableWait : Nat
  pllStableWait : Nat
  modemWakeupWait : Nat
  regdmaWait : Nat
  totalGuardTimeUs : Nat
deriving DecidableEq, Repr, Inhabited

/-- One field by name, in the order of the views `BUDGET[j]` and `HWWAIT[j]` (10_state.md R35). -/
def budgetGet (b : SleepBudget) : BudgetField → Word
  | .lpWait => b.lpWait
  | .hpWait => b.hpWait
  | .xtalStableWait => b.xtalStableWait
  | .pllStableWait => b.pllStableWait
  | .modemWakeupWait => b.modemWakeupWait
  | .regdmaWait => b.regdmaWait
  | .totalGuardTime => b.totalGuardTimeUs

/-- One field replaced. -/
def budgetSet (b : SleepBudget) (f : BudgetField) (v : Word) : SleepBudget :=
  match f with
  | .lpWait => { b with lpWait := v }
  | .hpWait => { b with hpWait := v }
  | .xtalStableWait => { b with xtalStableWait := v }
  | .pllStableWait => { b with pllStableWait := v }
  | .modemWakeupWait => { b with modemWakeupWait := v }
  | .regdmaWait => { b with regdmaWait := v }
  | .totalGuardTime => { b with totalGuardTimeUs := v }

/-- The budget fields in order (10_state.md R35). -/
def budgetFields : List BudgetField :=
  [.lpWait, .hpWait, .xtalStableWait, .pllStableWait, .modemWakeupWait, .regdmaWait, .totalGuardTime]

/-- `us_of_lp(n)` (R123): LP clock cycles to microseconds, to nearest. -/
def usOfLp (lpHz n : Nat) : Nat := natDiv (n * 1000000 + lpHz / 2) lpHz

/-- `clock_power_on_wait_us` (R123, conflict C3: the union of the two conditions). -/
def clockPowerOnWaitUs (cfg : Cfg) (lpHz : Nat) (mf pd : Word) : Nat :=
  if pdXtal pd || lpClkXtal mf then cfg.lp.xtalStableWaitUs.toNat else usOfLp lpHz cfg.lp.clkPowerOnWaitCycles.toNat

/-- `lp_wait_us` (R123). -/
def lpWaitUs (cfg : Cfg) (lpHz : Nat) (mf pd : Word) : Nat :=
  cfg.lp.minSleepTimeUs.toNat + cfg.lp.analogWaitUs.toNat + clockPowerOnWaitUs cfg lpHz mf pd +
    cfg.lp.clockSwitchWaitUs.toNat + cfg.lp.powerSupplyWaitUs.toNat + cfg.lp.powerUpWaitUs.toNat

/-- `clock_wait_us` (R123). -/
def clockWaitUs (cfg : Cfg) (pd : Word) : Nat :=
  if pdXtal pd then cfg.hp.xtalStableWaitUs.toNat + cfg.hp.pllStableWaitUs.toNat else 0

/-- `hp_wait_us` (R123). -/
def hpWaitUs (cfg : Cfg) (pd : Word) : Nat :=
  cfg.hp.analogWaitUs.toNat + max (cfg.hp.powerUpWaitUs.toNat + cfg.hp.regdmaWaitUs.toNat) (clockWaitUs cfg pd)

/-- `total_us` (R123). -/
def totalUs (cfg : Cfg) (lpHz : Nat) (mf pd adj : Word) : Nat :=
  lpWaitUs cfg lpHz mf pd + hpWaitUs cfg pd +
    (if modemCoex mf then cfg.hp.clockDomainSyncTimeUs.toNat + cfg.hp.rfOnProtectTimeUs.toNat else 0) + adj.toNat

/-- `cyc(us, hz)` (R124): to nearest, ties up. -/
def cycles (us hz : Nat) : Nat := (us * hz + 500000) / 1000000

/-- `cyc_hp(us)` (R124) at a CPU frequency in MHz. -/
def cyclesHp (us mhz : Nat) : Nat := cycles us (mhz * 1000000)

/-- The budget of R125 before narrowing, at an LP clock of `lpHz` and a CPU frequency of `hpMhz`. -/
def wideBudget (cfg : Cfg) (lpHz hpMhz mf pd adj : Word) : WideBudget where
  lpWait := cycles (lpWaitUs cfg lpHz.toNat mf pd) lpHz.toNat
  hpWait := cyclesHp (hpWaitUs cfg pd) hpMhz.toNat
  xtalStableWait := cyclesHp cfg.hp.xtalStableWaitUs.toNat hpMhz.toNat
  pllStableWait := cyclesHp cfg.hp.pllStableWaitUs.toNat hpMhz.toNat
  modemWakeupWait := if cfg.hasModemMode then cyclesHp cfg.hp.modemWakeupWaitUs.toNat hpMhz.toNat else 0
  regdmaWait := cyclesHp cfg.hp.regdmaWaitUs.toNat hpMhz.toNat
  totalGuardTimeUs := totalUs cfg lpHz.toNat mf pd adj

/-- Every field fits in 32 bits (R122 check (3)). -/
def budgetFits (b : WideBudget) : Bool :=
  decide (b.lpWait < 2 ^ 32 ∧ b.hpWait < 2 ^ 32 ∧ b.xtalStableWait < 2 ^ 32 ∧ b.pllStableWait < 2 ^ 32 ∧
    b.modemWakeupWait < 2 ^ 32 ∧ b.regdmaWait < 2 ^ 32 ∧ b.totalGuardTimeUs < 2 ^ 32)

/-- One field narrowed; beyond 32 bits the spec states no value (log 11). -/
def narrowField (n : Nat) : Word := if n < 2 ^ 32 then BitVec.ofNat 32 n else Config.budgetBeyond32 n

/-- The budget as the 32-bit registers hold it. -/
def narrowBudget (b : WideBudget) : SleepBudget where
  lpWait := narrowField b.lpWait
  hpWait := narrowField b.hpWait
  xtalStableWait := narrowField b.xtalStableWait
  pllStableWait := narrowField b.pllStableWait
  modemWakeupWait := narrowField b.modemWakeupWait
  regdmaWait := narrowField b.regdmaWait
  totalGuardTimeUs := narrowField b.totalGuardTimeUs

end Sys2Proof.Machine
end

