-- ==== Sys2Proof/Machine/State.lean ====
section
/-! DEFINITION. The state of the machine: every piece of state of 10_state.md, plain data, with its reset values
(70_reset_and_hazards.md R181), and the two ways a step can stop. -/

namespace Sys2Proof.Machine

/-- Why the model stops. -/
inductive Fault where
  /-- Raised by a host access at an address outside the 4 KiB window at `CSC_BASE` (20_memory.md R40, R46): the block is not
  its target and the spec says nothing of it. Safe: the model stops where the hardware does nothing. Log 12. -/
  | outsideWindow
deriving DecidableEq, Repr

/-- Why an instruction has no meaning. -/
inductive Refusal where
  /-- Raised by an arm of `exec` for an op the model gives no meaning. Safe. No arm raises it. -/
  | notModelled (mnemonic : String)
deriving DecidableEq, Repr

/-- `clk_state` (10_state.md R11). -/
inductive ClkState where
  | onCrystal
  | onPll (id : PllId)
  | onFastRc
deriving DecidableEq, Repr, Inhabited

/-- `cal_state[id]` (10_state.md R11, 41_pll.md R105). -/
inductive CalState where
  | calIdle | calStarted | calFailed
deriving DecidableEq, Repr, Inhabited

/-- `slp_state` (10_state.md R11, 42_sleep.md R132). -/
inductive SlpState where
  | idle | paramsBuilt | armed | asleep | wokenOrRejected
deriving DecidableEq, Repr, Inhabited

/-- `wt.phase` (10_state.md R30). -/
inductive WtPhase where
  | off | lpWait | hpWait
deriving DecidableEq, Repr, Inhabited

/-- `SleepResult` (42_sleep.md R131). -/
inductive SleepResult where
  | woken | rejected
deriving DecidableEq, Repr, Inhabited

/-- What an op writes to `RES` at its end: nothing, the SleepResult (42_sleep.md R130, R135), or three budget words (R122). -/
inductive Ending where
  | plain | sleepResult | budget
deriving DecidableEq, Repr, Inhabited

/-- An item of the remaining script of the running sequenced op (10_state.md R12). The pseudocode's lines marked `µ` are
micro-steps; `setConfig` to `program` are the unmarked control lines, replaced by what they stand for in the state where they
are reached; `setProgrammed` and `finish` are unmarked lines that belong to the micro-step before them (log 6). -/
inductive Micro where
  /-- `set_config(t)` (40_clocktree.md R90). -/
  | setConfig (t : ClockConfig)
  /-- `set_config(saved_cfg)` (42_sleep.md R135). -/
  | restoreSaved
  /-- Step 3 of set_config (R90), with `old.freq_mhz` for the failure path (R93). -/
  | bringUp (t : ClockConfig) (oldFreqMhz : Word)
  /-- `apply(t)` (R87). -/
  | apply (t : ClockConfig)
  /-- The PROGRAM body (42_sleep.md R129). -/
  | program
  /-- One write of `apply(t)` (R87). -/
  | applyWrite (t : ClockConfig) (f : RegField)
  /-- The last micro-step of `apply(t)` (R87). -/
  | applyEnd (t : ClockConfig)
  /-- Step 2 of set_config (R90). -/
  | dropPll (p : PllId)
  /-- `step5` (R92). -/
  | stepFive (oldFreqMhz newFreqMhz : Word)
  /-- `pll_enable_body` (41_pll.md R101). -/
  | pllEnable (id : PllId)
  /-- The body of PLL_DISABLE (R107). -/
  | pllDisable (id : PllId)
  /-- The digital divider write of `cfg_cal_body` (R103). -/
  | calDivide (id : PllId) (xtalMhz targetMhz : Word)
  /-- The calibration start (R103). -/
  | calStart (id : PllId)
  /-- One poll of the calibration loop (R103); inside set_config a timeout first does `step5` from this frequency (R93). -/
  | calPoll (id : PllId) (oldFreqMhz : Option Word)
  /-- The calibration stop (R103). -/
  | calStop (id : PllId) (targetMhz : Word)
  /-- The BUILD_PARAMS body (42_sleep.md R122). -/
  | buildParams (modeFlags pdFlags adjustUs : Word)
  /-- One write of the PROGRAM sequence (R129). -/
  | progWrite (f : RegField)
  /-- The write of a REGDMA toggle (R133, R134). -/
  | regdmaWrite (on : Bool)
  /-- The micro-steps of `enter_body` (R130), in order. -/
  | wakeType (deep : Bool)
  | wakeEn (mask : Word)
  | rejectEn (mask : Word)
  | intClr
  | sleepStart
  | pollStatus
  | pollAux
  | enterEnd
  /-- `programmed <- true` at the end of the PROGRAM body (R128). -/
  | setProgrammed
  /-- `end OK`, after the results of the op. -/
  | finish (e : Ending)
deriving DecidableEq, Repr, Inhabited

/-- The mailbox of one core: `CMD`, `ARG`, the fields of `STATUS`, `RES` (10_state.md R10, R36). -/
structure Mailbox where
  cmd : Word
  arg : Regs5
  pending : Bool
  running : Bool
  done : Bool
  code : Byte
  res : Regs5
deriving DecidableEq, Repr

/-- The values the hardware select and divider fields hold at this instant (10_state.md R14). -/
structure HwClock where
  mux : ClockSource
  cpuDiv : Fraction
  busDiv : BusDivs
deriving DecidableEq, Repr

/-- ClockTree state (10_state.md R11, R14, R15). -/
structure ClockTree where
  state : ClkState
  cur : ClockConfig
  hw : HwClock
  ticksPerUs : Word
  cycleCounter : Word
deriving DecidableEq, Repr

/-- The state of one PLL controller: `pll[id]`, `cal_state[id]`, `cal_polls_left[id]` (10_state.md R17, R11, R18). -/
structure Pll where
  enabled : Bool
  configuredFreqMhz : Word
  consumerCount : Word
  calState : CalState
  calPollsLeft : Nat
deriving DecidableEq, Repr, Inhabited

/-- `params` (10_state.md R25). -/
structure SleepParams where
  hp : ModeParams
  lp : ModeParams
  modeFlags : Word
  pdFlags : Word
  budget : SleepBudget
deriving DecidableEq, Repr, Inhabited

/-- SleepSequencer state (10_state.md R11, R22, R25 to R32). -/
structure SleepSeq where
  state : SlpState
  pmt : Vector ModeParams 5
  bkp : Vector Word 3
  params : SleepParams
  programmed : Bool
  regdmaEnabled : Bool
  wakeType : Bool
  wakeEn : Word
  rejectEn : Word
  wakeupOccurred : Bool
  sleepRejected : Bool
  asleep : Bool
  wtPhase : WtPhase
  wtCount : Word
  hwwait : SleepBudget
  savedCfg : ClockConfig
  lpClkFreqHz : Word
deriving DecidableEq, Repr

/-- Op sequencing (10_state.md R12): `busy`, `owner`, the remaining script of the running op and its local `r`. -/
structure Sequencer where
  busy : Bool
  owner : Core
  script : List Micro
  result : Option SleepResult
deriving DecidableEq, Repr

/-- The fault record (10_state.md R34). -/
structure FaultReg where
  halted : Bool
  code : Byte
  info : BitVec 16
deriving DecidableEq, Repr

/-- The inputs of the block, and the model's own fields that say what the other agents do next (logs 2, 5, 13, 14). -/
structure Env where
  wakeLines : Word
  rejectLines : Word
  agenda : List Action
  choices : Nat
  picked : Core
  readData : Option Word
deriving DecidableEq, Repr

/-- The whole state. `cfg` is configuration and never changes (00_scope.md R8, log 1). -/
structure State where
  cfg : Cfg
  mbox : Vector Mailbox 8
  seq : Sequencer
  clk : ClockTree
  plls : Vector Pll 8
  curPllFreqMhz : Word
  lastCalPll : PllId
  slp : SleepSeq
  fault : FaultReg
  trace : List Event
  env : Env
deriving DecidableEq, Repr

/-- A mailbox after RESET (R181). -/
def Mailbox.reset : Mailbox where
  cmd := 0
  arg := Vector.replicate 5 0
  pending := false
  running := false
  done := false
  code := 0
  res := Vector.replicate 5 0

/-- A PLL controller after RESET (R181); also what the model reads for a PllId beyond the eight it holds. -/
def Pll.reset : Pll where
  enabled := false
  configuredFreqMhz := 0
  consumerCount := 0
  calState := .calIdle
  calPollsLeft := 0

/-- A budget of zeros (R181). -/
def SleepBudget.zero : SleepBudget := ⟨0, 0, 0, 0, 0, 0, 0⟩

/-- ModeParams of zeros (R181). -/
def ModeParams.zero : ModeParams := ⟨0, 0, 0, 0, 0⟩

/-- ClockTree after RESET (R181). -/
def ClockTree.reset (cfg : Cfg) : ClockTree where
  state := .onCrystal
  cur := xtalNative cfg
  hw := { mux := .crystal, cpuDiv := intFraction 1, busDiv := busDivs cfg (xtalNative cfg) }
  ticksPerUs := cfg.xtalFreqMhz
  cycleCounter := 0

/-- SleepSequencer after RESET (R181). -/
def SleepSeq.reset (cfg : Cfg) : SleepSeq where
  state := .idle
  pmt := cfg.pmtDefault
  bkp := cfg.backupDefault
  params := { hp := ModeParams.zero, lp := ModeParams.zero, modeFlags := 0, pdFlags := 0, budget := SleepBudget.zero }
  programmed := false
  regdmaEnabled := false
  wakeType := false
  wakeEn := 0
  rejectEn := 0
  wakeupOccurred := false
  sleepRejected := false
  asleep := false
  wtPhase := .off
  wtCount := 0
  hwwait := SleepBudget.zero
  savedCfg := xtalNative cfg
  lpClkFreqHz := 0

/-- The environment's part when nothing has been placed: lines low, no action listed (logs 2, 14: the model's choice). -/
def Env.reset : Env where
  wakeLines := 0
  rejectLines := 0
  agenda := []
  choices := 0
  picked := 0
  readData := none

/-- The state after RESET on the chip `cfg` (70_reset_and_hazards.md R180, R181). -/
def State.resetOf (cfg : Cfg) : State where
  cfg := cfg
  mbox := Vector.replicate 8 Mailbox.reset
  seq := { busy := false, owner := 0, script := [], result := none }
  clk := ClockTree.reset cfg
  plls := Vector.replicate 8 Pll.reset
  curPllFreqMhz := 0
  lastCalPll := 0
  slp := SleepSeq.reset cfg
  fault := { halted := false, code := 0, info := 0 }
  trace := []
  env := Env.reset

/-- The machine right after reset, on the spec's example chip (log 1). -/
def State.reset : State := State.resetOf Config.ex40

end Sys2Proof.Machine
end

