-- ==== Sys2Proof/Machine/Flags.lean ====
section
/-! DEFINITION. Status codes (60_exceptions.md R150) and every packed status word the host can read: `STATUS`, `CLK_STATE`,
`SLP_STATE`, `INT_STATUS`, `FAULT`, `BUSY`, `PLL_STATE` (10_state.md R10, R33, R35). Reserved bits read 0. -/

namespace Sys2Proof.Machine

/-- The status codes of R150. -/
inductive StatusCode where
  | ok
  | unsupportedFrequency
  | calibrationTimeout
  | consumerAccountingViolation
  | illegalCmd
  | invalidConfig
  | seqOrder
  | budgetOverflow
  | pllNotEnabled
  | notOnCrystal
  | pllInUse
  | consumerOverflow
  | badPllId
  | badMode
  | halted
deriving DecidableEq, Repr, Inhabited

/-- The numeric value of a status code (R150). -/
def codeByte : StatusCode → Byte
  | .ok => 0x00
  | .unsupportedFrequency => 0x01
  | .calibrationTimeout => 0x02
  | .consumerAccountingViolation => 0x03
  | .illegalCmd => 0x10
  | .invalidConfig => 0x11
  | .seqOrder => 0x12
  | .budgetOverflow => 0x13
  | .pllNotEnabled => 0x14
  | .notOnCrystal => 0x15
  | .pllInUse => 0x16
  | .consumerOverflow => 0x17
  | .badPllId => 0x18
  | .badMode => 0x19
  | .halted => 0x1F

/-- `state_of` (10_state.md R11). -/
def stateOf : ClockSource → ClkState
  | .crystal => .onCrystal
  | .pll id => .onPll id
  | .fastRc => .onFastRc

/-- A byte placed at bit `n` of a word. -/
def byteAt (b : Byte) (n : Nat) : Word := b.setWidth 32 <<< n

/-- A flag placed at bit `n` of a word. -/
def bitAt (b : Bool) (n : Nat) : Word := bit b <<< n

/-- `STATUS[c]` (R10). -/
def statusWord (m : Mailbox) : Word := bitAt m.pending 0 ||| bitAt m.running 1 ||| bitAt m.done 2 ||| byteAt m.code 8

/-- `CLK_STATE` (R35): the tag, and the PllId when the tag is 1. -/
def clkStateWord : ClkState → Word
  | .onCrystal => 0
  | .onPll id => 1 ||| byteAt id 8
  | .onFastRc => 2

/-- The encoding of `cal_state` (R11). -/
def calStateCode : CalState → Byte
  | .calIdle => 0
  | .calStarted => 1
  | .calFailed => 2

/-- The encoding of `slp_state` (R11). -/
def slpStateCode : SlpState → Byte
  | .idle => 0
  | .paramsBuilt => 1
  | .armed => 2
  | .asleep => 3
  | .wokenOrRejected => 4

/-- The encoding of `wt.phase` (R30). -/
def wtPhaseCode : WtPhase → Byte
  | .off => 0
  | .lpWait => 1
  | .hpWait => 2

/-- `SLP_STATE` (R35). -/
def slpStateWord (z : SleepSeq) : Word :=
  byteAt (slpStateCode z.state) 0 ||| bitAt z.programmed 4 ||| bitAt z.regdmaEnabled 5 ||| bitAt z.asleep 6 |||
    bitAt z.wakeType 7 ||| byteAt (wtPhaseCode z.wtPhase) 8

/-- `INT_STATUS` (R35), also what the status poll of ENTER reads (R38). -/
def intStatusWord (z : SleepSeq) : Word := bitAt z.wakeupOccurred 0 ||| bitAt z.sleepRejected 1

/-- `FAULT` (R35). -/
def faultWord (f : FaultReg) : Word := bitAt f.halted 0 ||| byteAt f.code 8 ||| (f.info.setWidth 32 <<< 16)

/-- `BUSY` (R35): the owner is shown only while busy. -/
def busyWord (q : Sequencer) : Word := bitAt q.busy 0 ||| (if q.busy then byteAt (BitVec.ofNat 8 q.owner.val) 8 else 0)

/-- `PLL_STATE[id]` (R35). -/
def pllStateWord (p : Pll) : Word := bitAt p.enabled 0 ||| byteAt (calStateCode p.calState) 1

/-- The value of `RES0` for a SleepResult (42_sleep.md R131). -/
def sleepResultWord : SleepResult → Word
  | .woken => 0
  | .rejected => 1

/-- The fault information of a PLL fault: `[7:0]` the PllId, `[15:8]` the sub-code (R150). -/
def pllFaultInfo (id : PllId) (sub : Byte) : BitVec 16 := sub ++ id

end Sys2Proof.Machine
end

