-- ==== Sys2Proof/Machine/Ops.lean ====
section
/-! DEFINITION. The named operations every op is built from: register accessors, event emission, the end of an op, refusal
(60_exceptions.md R155), the fatal-fault entry (R156), acceptance (30_encoding.md R72) and the end of a micro-step. -/

namespace Sys2Proof.Machine

/-! ### Accessors -/

/-- The mailbox of core `c`. -/
def mboxAt (s : State) (c : Core) : Mailbox := s.mbox[c.val]

/-- The mailbox of core `c` replaced. -/
def setMbox (c : Core) (m : Mailbox) (s : State) : State := { s with mbox := s.mbox.set c.val m }

/-- The controller of a PLL; the model holds eight (10_state.md R35 limits `N_PLL` to 8, log 17). -/
def pllAt (s : State) (id : PllId) : Pll := (s.plls[id.toNat]?).getD Pll.reset

/-- The controller of a PLL replaced. -/
def setPll (id : PllId) (p : Pll) (s : State) : State := { s with plls := s.plls.setIfInBounds id.toNat p }

/-- ClockTree replaced. -/
def setClk (k : ClockTree) (s : State) : State := { s with clk := k }

/-- SleepSequencer replaced. -/
def setSlp (z : SleepSeq) (s : State) : State := { s with slp := z }

/-- Op sequencing replaced. -/
def setSeq (q : Sequencer) (s : State) : State := { s with seq := q }

/-- The environment's part replaced. -/
def setEnv (e : Env) (s : State) : State := { s with env := e }

/-- The current PLL frequency and the PLL it refers to (10_state.md R19). -/
def setCurPll (freqMhz : Word) (id : PllId) (s : State) : State := { s with curPllFreqMhz := freqMhz, lastCalPll := id }

/-- The working mode table entry `pmt[k]`. -/
def pmtAt (z : SleepSeq) (k : Fin 5) : ModeParams := z.pmt[k.val]

/-- The backup word `bkp[e]` (10_state.md R22). -/
def bkpAt (z : SleepSeq) : Edge → Word
  | .a2s => z.bkp[0]
  | .s2a => z.bkp[1]
  | .m2a => z.bkp[2]

/-- One word of a ModeParams record (10_state.md R21). -/
def modeWord (p : ModeParams) : ModeWord → Word
  | .pwr => p.pwr
  | .ckg => p.ckg
  | .ana => p.ana
  | .pad => p.pad
  | .ret => p.ret

/-- `emit` and the record of a poll: the event is appended to the trace (00_scope.md section 5.2). -/
def emit (e : Event) (s : State) : State := { s with trace := s.trace ++ [e] }

/-! ### Outbound accesses -/

/-- The 32-bit address of a place on the RegisterBus, always a multiple of 4 (20_memory.md R40, R41). -/
def regAddress (loc : RegLocation) : Word := loc.word ++ (0 : BitVec 2)

/-- The four primitives of 20_memory.md R47 at the places `REGMAP` gives: `write` and `read` of a 32-bit RegisterBus word,
`bus_write` and `bus_read` of a control-bus byte. A read carries the value it answered. -/
inductive BusAccess where
  | write (loc : RegLocation) (value : Word)
  | read (loc : RegLocation) (value : Word)
  | busWrite (loc : CtlLocation) (value : Byte)
  | busRead (loc : CtlLocation) (value : Byte)
deriving DecidableEq, Repr

/-- The width of a primitive in bytes, the `n` of `MemWrite` and `MemRead` (R47). -/
def accessBytes : BusAccess → Nat
  | .write _ _ => 4
  | .read _ _ => 4
  | .busWrite _ _ => 1
  | .busRead _ _ => 1

/-- The access an event stands for (R47): `W` is a word write on the RegisterBus, `B` a byte write on the control bus, a poll the
read of its input on the bus that has it. A status input has at most two bits (10_state.md R38), so a byte holds what it answers. -/
def eventAccess : Event → BusAccess
  | .w f v => .write (Config.regLocation f) v
  | .b f v => .busWrite (Config.busLocation f) v
  | .r i v =>
    match Config.pollLocation i with
    | .reg loc => .read loc v
    | .ctl loc => .busRead loc (v.setWidth 8)

/-- The accesses of the block since reset, in the order they were made; each has completed before the next micro-step (R47). -/
def accesses (s : State) : List BusAccess := s.trace.map eventAccess

/-- The ones of a bit range. -/
def rangeMask {w : Nat} (r : BitRange w) : BitVec w := BitVec.ofNat w (2 ^ (r.hi.val + 1 - r.lo.val) - 1) <<< r.lo.val

/-- A masked write (20_memory.md R45): `t[hi:lo] <- v` on the value `old` that the place held; without a range the whole value.
DESIGN CHOICE: the bits of `v` above `hi - lo`, of which the spec says nothing, are dropped. Log 26. -/
def maskedWrite {w : Nat} (range : Option (BitRange w)) (old v : BitVec w) : BitVec w :=
  match range with
  | none => v
  | some r => (old &&& ~~~(rangeMask r)) ||| ((v <<< r.lo.val) &&& rangeMask r)

/-- A read restricted to the flag's bits (R47): `t[hi:lo]` of the value `t` that the place holds. -/
def maskedRead {w : Nat} (range : Option (BitRange w)) (t : BitVec w) : BitVec w :=
  match range with
  | none => t
  | some r => (t &&& rangeMask r) >>> r.lo.val

/-! ### Results and the end of an op -/

/-- `RES[c][i] <- v`. -/
def setRes (c : Core) (i : Fin 5) (v : Word) (s : State) : State :=
  setMbox c { mboxAt s c with res := (mboxAt s c).res.set i.val v } s

/-- A ClockConfig in `RES0..RES3` (30_encoding.md R65). -/
def setResConfig (c : Core) (k : ClockConfig) (s : State) : State :=
  setRes c 3 k.freqMhz (setRes c 2 (packFraction k.divider) (setRes c 1 k.sourceFreqMhz (setRes c 0 (sourceCode k.source) s)))

/-- A ModeParams record in `RES0..RES4`, in the order PWR, CKG, ANA, PAD, RET (42_sleep.md R136). -/
def setResMode (c : Core) (p : ModeParams) (s : State) : State :=
  setRes c 4 p.ret (setRes c 3 p.pad (setRes c 2 p.ana (setRes c 1 p.ckg (setRes c 0 p.pwr s))))

/-- "Ends the op with code K" (30_encoding.md R72) in the issuer's `STATUS`; `PENDING` is clear afterwards in every case
(log 7). -/
def endOp (c : Core) (k : StatusCode) (s : State) : State :=
  setMbox c { mboxAt s c with pending := false, running := false, done := true, code := codeByte k } s

/-- `busy <- false`, and nothing is left of the op that ran. -/
def release (s : State) : State := setSeq { s.seq with busy := false, script := [], result := none } s

/-- The SleepResult in `RES0` of core `c` (42_sleep.md R130, R135). -/
def setResSleep (c : Core) (s : State) : State :=
  match s.seq.result with
  | some r => setRes c 0 (sleepResultWord r) s
  | none => s

/-- The results of an op that ends `OK` (42_sleep.md R122, R130, R135). -/
def setResults (c : Core) (e : Ending) (s : State) : State :=
  match e with
  | .plain => s
  | .sleepResult => setResSleep c s
  | .budget =>
    let b := s.slp.params.budget
    setRes c 2 b.totalGuardTimeUs (setRes c 1 b.hpWait (setRes c 0 b.lpWait s))

/-- The running sequenced op ends `OK`. -/
def finishOp (e : Ending) (s : State) : State := release (endOp s.seq.owner .ok (setResults s.seq.owner e s))

/-- `programmed` set or cleared. -/
def setProgrammed (b : Bool) (s : State) : State := setSlp { s.slp with programmed := b } s

/-- The end of a micro-step: the unmarked lines that follow it belong to it (log 6), then the rest of the script stays. -/
def advance : List Micro → State → State
  | .setProgrammed :: rest, s => advance rest (setProgrammed true s)
  | .finish e :: _, s => finishOp e s
  | rest, s => setSeq { s.seq with script := rest } s

/-! ### Fatal faults (R156) -/

/-- Step 2 of `raise`: the first fault is recorded, a later one is not (R34, R156). -/
def recordFault (k : StatusCode) (info : BitVec 16) (s : State) : State :=
  if s.fault.halted then s else { s with fault := { halted := true, code := codeByte k, info := info } }

/-- Step 4 of `raise`: another core's running sequenced op is abandoned. -/
def abandonOther (c : Core) (s : State) : State :=
  if s.seq.busy ∧ s.seq.owner ≠ c then release (endOp s.seq.owner .halted s) else s

/-- `raise E(info)` (R156) by core `c`; `sequenced` says that the faulting op is the running sequenced op. Nothing is saved for
a return and no vector is computed (R162): the block is in HALT until RESET. -/
def raiseFatal (c : Core) (sequenced : Bool) (k : StatusCode) (info : BitVec 16) (s : State) : State :=
  let s1 := endOp c k (recordFault k info s)
  abandonOther c (if sequenced then release s1 else s1)

/-! ### Acceptance (30_encoding.md R72) -/

/-- The first failing check of an op, in the order its rule lists them (R72 (6)). -/
def firstFailing : List (Bool × StatusCode) → Option StatusCode
  | [] => none
  | (true, _) :: rest => firstFailing rest
  | (false, k) :: _ => some k

/-- An immediate op: refused `HALTED` in HALT, else its checks and its whole body in this micro-step (R72, R53). -/
def immediate (checks : List (Bool × StatusCode)) (body : State → State) (s : State) : Host.Outcome State Fault Refusal :=
  .next
    (if s.fault.halted then endOp s.env.picked .halted s
    else
      match firstFailing checks with
      | some k => endOp s.env.picked k s
      | none => body s)

/-- The issuer of an accepted sequenced op becomes its owner, with the op's script (R72 (4), (5)). -/
def start (script : List Micro) (s : State) : State :=
  advance script
    (setSeq { busy := true, owner := s.env.picked, script := [], result := none }
      (setMbox s.env.picked { mboxAt s s.env.picked with pending := false, running := true } s))

/-- A sequenced op's acceptance micro-step (R72): refused `HALTED` in HALT; left pending while another runs; else its checks,
and where none fails its acceptance effect `prep` and its script. -/
def sequenced (checks : List (Bool × StatusCode)) (prep : State → State) (script : List Micro) (s : State) :
    Host.Outcome State Fault Refusal :=
  .next
    (if s.fault.halted then endOp s.env.picked .halted s
    else if s.seq.busy then s
    else
      match firstFailing checks with
      | some k => endOp s.env.picked k s
      | none => start script (prep s))

/-- The built sleep parameters are discarded (42_sleep.md R121). -/
def discardParams (s : State) : State :=
  if s.slp.state = .paramsBuilt then setSlp { s.slp with state := .idle, programmed := false } s else s

end Sys2Proof.Machine
end

