-- ==== Sys2Proof/Machine/ClockTree.lean ====
section
/-! DEFINITION. ClockTree (40_clocktree.md): the scripts of `apply` and `set_config`, their micro-steps, and the ops RESOLVE,
SET_CONFIG, SET_CPU_FREQ, GET_CPU_FREQ. The bodies of the PLL controllers that `set_config` runs are in Machine/Pll.lean. -/

namespace Sys2Proof.Machine

/-- The micro-steps of `apply(t)` from the applied configuration `cur` (R87). -/
def applyScript (cfg : Cfg) (cur t : ClockConfig) : List Micro :=
  (applyOrder cfg cur t).map (Micro.applyWrite t) ++ [.applyEnd t]

/-- The value `apply(t)` writes to a field (R87). -/
def applyValue (cfg : Cfg) (t : ClockConfig) : RegField → Word
  | .muxSel => sourceCode t.source
  | .div .cpu => packFraction t.divider
  | .div b => busDiv (busDivs cfg t) b
  | _ => 0

/-- The hardware fields after a write of `apply(t)` (R87, 10_state.md R14). -/
def hwWrite (cfg : Cfg) (t : ClockConfig) (h : HwClock) : RegField → HwClock
  | .muxSel => { h with mux := t.source }
  | .div .cpu => { h with cpuDiv := t.divider }
  | .div b => { h with busDiv := setBusDiv h.busDiv b (busDiv (busDivs cfg t) b) }
  | _ => h

/-- One write of `apply(t)`: the event and the hardware field in one micro-step (R87). -/
def doApplyWrite (t : ClockConfig) (f : RegField) (s : State) : State :=
  setClk { s.clk with hw := hwWrite s.cfg t s.clk.hw f } (emit (.w f (applyValue s.cfg t f)) s)

/-- The last micro-step of `apply(t)`: `cur` and `clk_state` together (R87, 10_state.md R11). -/
def doApplyEnd (t : ClockConfig) (s : State) : State := setClk { s.clk with cur := t, state := stateOf t.source } s

/-- The rescaled cycle counter (R92): exact product, floor division, modulo 2^32. -/
def rescale (counter oldMhz newMhz : Word) : Word :=
  BitVec.ofNat 32 (natDiv (counter.toNat * newMhz.toNat) oldMhz.toNat)

/-- `step5(f_old, f_new)` (R92). -/
def doStepFive (oldMhz newMhz : Word) (s : State) : State :=
  setClk { s.clk with ticksPerUs := newMhz, cycleCounter := rescale s.clk.cycleCounter oldMhz newMhz } s

/-- The target PLL must be reconfigured (R90, `reconf`). -/
def needsReconf (s : State) (t : ClockConfig) : Bool :=
  match t.source with
  | .pll q => decide ((pllAt s q).configuredFreqMhz ≠ t.sourceFreqMhz)
  | _ => false

/-- Step 1 of `set_config` goes through the crystal (R90, conflict C2). -/
def goesThroughCrystal (s : State) (t : ClockConfig) : Bool :=
  decide (s.clk.cur.source ≠ .crystal) && (decide (t.source ≠ s.clk.cur.source) || needsReconf s t)

/-- The PLL that `set_config(t)` leaves, if any (R90 step 2). -/
def leftPll (cur t : ClockConfig) : Option PllId :=
  match cur.source with
  | .pll p => if t.source ≠ .pll p then some p else none
  | _ => none

/-- `set_config(t)` (R90), from the state where it is reached. -/
def setConfigScript (s : State) (t : ClockConfig) : List Micro :=
  let old := s.clk.cur
  (if goesThroughCrystal s t then [.apply (xtalNative s.cfg)] else []) ++
    (match leftPll old t with
      | some p => [.dropPll p]
      | none => []) ++
    (match t.source with
      | .pll _ => [.bringUp t old.freqMhz]
      | _ => []) ++
    [.apply t, .stepFive old.freqMhz t.freqMhz]

/-- Step 3 of `set_config(t)` (R90): nothing at all on the fast path (R91). -/
def bringUpScript (s : State) (t : ClockConfig) (oldMhz : Word) : List Micro :=
  match t.source with
  | .pll q =>
    (if (pllAt s q).enabled then [] else [.pllEnable q]) ++
      (if (pllAt s q).configuredFreqMhz ≠ t.sourceFreqMhz then
        [.calDivide q s.cfg.xtalFreqMhz t.sourceFreqMhz, .calStart q, .calPoll q (some oldMhz), .calStop q t.sourceFreqMhz]
      else [])
  | _ => []

/-! ### The ops -/

/-- RESOLVE (R82). -/
def execResolve (freqMhz : Word) (s : State) : Host.Outcome State Fault Refusal :=
  immediate [((resolve s.cfg freqMhz).isSome, .unsupportedFrequency)]
    (fun s =>
      match resolve s.cfg freqMhz with
      | some k => endOp s.env.picked .ok (setResConfig s.env.picked k s)
      | none => s)
    s

/-- GET_CPU_FREQ (R95). -/
def execGetCpuFreq (s : State) : Host.Outcome State Fault Refusal :=
  immediate [] (fun s => endOp s.env.picked .ok (setResConfig s.env.picked s.clk.cur s)) s

/-- SET_CONFIG (R90). -/
def execSetConfig (source sourceFreqMhz divider freqMhz : Word) (s : State) : Host.Outcome State Fault Refusal :=
  sequenced [((decodeValidConfig s.cfg source sourceFreqMhz divider freqMhz).isSome, .invalidConfig)] discardParams
    (match decodeValidConfig s.cfg source sourceFreqMhz divider freqMhz with
      | some t => [.setConfig t, .finish .plain]
      | none => [])
    s

/-- SET_CPU_FREQ (R94): resolve, then set_config. -/
def execSetCpuFreq (freqMhz : Word) (s : State) : Host.Outcome State Fault Refusal :=
  sequenced [((resolve s.cfg freqMhz).isSome, .unsupportedFrequency)] discardParams
    (match resolve s.cfg freqMhz with
      | some t => [.setConfig t, .finish .plain]
      | none => [])
    s

end Sys2Proof.Machine
end

