-- ==== Sys2Proof/Machine/Pll.lean ====
section
/-! DEFINITION. The PLL controllers (41_pll.md): enable, the calibration handshake, disable, consumer accounting, and their
five ops. -/

namespace Sys2Proof.Machine

/-- `pll_enable_body(id)` (R101). -/
def pllEnableBody (id : PllId) (s : State) : State :=
  setPll id { pllAt s id with enabled := true } (emit (.w (.pllPwr id) 1) s)

/-- `cur_pll_freq_mhz` no longer holds if it refers to this PLL (R103, R106). -/
def forgetCurPll (id : PllId) (s : State) : State := if s.lastCalPll = id then setCurPll 0 s.lastCalPll s else s

/-- `pll_disable_body(id)` (R106). -/
def pllDisableBody (id : PllId) (s : State) : State :=
  forgetCurPll id
    (setPll id { pllAt s id with enabled := false, configuredFreqMhz := 0, calState := .calIdle } (emit (.w (.pllPwr id) 0) s))

/-- Step 2 of `set_config`: the check of the count and the disable are one micro-step (40_clocktree.md R90, 20_memory.md
R49). -/
def doDropPll (p : PllId) (s : State) : State := if (pllAt s p).consumerCount = 0 then pllDisableBody p s else s

/-- `cfg_cal_body`: the digital divider write (R103). -/
def doCalDivide (id : PllId) (xtalMhz targetMhz : Word) (s : State) : State :=
  forgetCurPll id
    (setPll id { pllAt s id with configuredFreqMhz := 0 } (emit (.w (.pllDiv id) (Config.pllDivWords id xtalMhz targetMhz)) s))

/-- `cfg_cal_body`: the calibration start (R103). -/
def doCalStart (id : PllId) (s : State) : State :=
  setPll id { pllAt s id with calState := .calStarted, calPollsLeft := s.cfg.calTimeoutPolls } (emit (.b (.calStart id) 1) s)

/-- `cfg_cal_body`: what every poll does: the event and one less poll left (R103). -/
def calPolled (id : PllId) (answer : Bool) (s : State) : State :=
  setPll id { pllAt s id with calPollsLeft := (pllAt s id).calPollsLeft - 1 } (emit (.r (.calDone id) (bit answer)) s)

/-- The last allowed poll answered 0: `CalFailed` (R103), inside `set_config` then `step5` for the configuration actually
applied (40_clocktree.md R93), and the fatal fault. -/
def calTimeout (id : PllId) (oldMhz : Option Word) (s : State) : State :=
  let s1 := setPll id { pllAt s id with calState := .calFailed } s
  let s2 :=
    match oldMhz with
    | some f => doStepFive f s1.clk.cur.freqMhz s1
    | none => s1
  raiseFatal s2.seq.owner true .calibrationTimeout (pllFaultInfo id 0) s2

/-- `cfg_cal_body`: one poll of the loop (R103). A done flag on the last allowed poll is a success. -/
def doCalPoll (id : PllId) (oldMhz : Option Word) (rest : List Micro) (answer : Bool) (s : State) : State :=
  let s1 := calPolled id answer s
  if answer then advance rest s1
  else if (pllAt s1 id).calPollsLeft = 0 then calTimeout id oldMhz s1
  else advance (.calPoll id oldMhz :: rest) s1

/-- `cfg_cal_body`: the calibration stop (R103). -/
def doCalStop (id : PllId) (targetMhz : Word) (s : State) : State :=
  setCurPll targetMhz id
    (setPll id { pllAt s id with calState := .calIdle, configuredFreqMhz := targetMhz } (emit (.b (.calStop id) 1) s))

/-- The body of PLL_DISABLE (R107): the fault with sub-code 1, or the disable. -/
def doPllDisable (id : PllId) (rest : List Micro) (s : State) : State :=
  if (pllAt s id).consumerCount = 0 then advance rest (pllDisableBody id s)
  else raiseFatal s.seq.owner true .consumerAccountingViolation (pllFaultInfo id 1) s

/-! ### The ops -/

/-- PLL_ENABLE (R102). -/
def execPllEnable (id : PllId) (s : State) : Host.Outcome State Fault Refusal :=
  sequenced [(pllIdOk s.cfg id, .badPllId)] (fun s => s) [.pllEnable id, .finish .plain] s

/-- PLL_CFG_CAL (R104): always the full handshake. -/
def execPllCfgCal (id : PllId) (xtalFreqMhz targetFreqMhz : Word) (s : State) : Host.Outcome State Fault Refusal :=
  sequenced
    [(pllIdOk s.cfg id, .badPllId),
      (decide (1 ≤ xtalFreqMhz.toNat) && decide (1 ≤ targetFreqMhz.toNat), .invalidConfig),
      ((pllAt s id).enabled, .pllNotEnabled),
      (decide (s.clk.cur.source = .crystal), .notOnCrystal)]
    (fun s => s)
    [.calDivide id xtalFreqMhz targetFreqMhz, .calStart id, .calPoll id none, .calStop id targetFreqMhz, .finish .plain] s

/-- PLL_DISABLE (R107). -/
def execPllDisable (id : PllId) (s : State) : Host.Outcome State Fault Refusal :=
  sequenced [(pllIdOk s.cfg id, .badPllId), (decide (s.clk.cur.source ≠ .pll id), .pllInUse)] (fun s => s)
    [.pllDisable id, .finish .plain] s

/-- The consumer count of a PLL replaced. -/
def setConsumers (id : PllId) (n : Word) (s : State) : State := setPll id { pllAt s id with consumerCount := n } s

/-- PLL_ADD_CONSUMER (R109). -/
def execPllAddConsumer (id : PllId) (s : State) : Host.Outcome State Fault Refusal :=
  immediate
    [(pllIdOk s.cfg id, .badPllId), (decide ((pllAt s id).consumerCount.toNat < 2 ^ 32 - 1), .consumerOverflow)]
    (fun s => endOp s.env.picked .ok (setConsumers id ((pllAt s id).consumerCount + 1) s)) s

/-- PLL_REMOVE_CONSUMER (R110): a remove at count zero is the fatal fault with sub-code 2. -/
def execPllRemoveConsumer (id : PllId) (s : State) : Host.Outcome State Fault Refusal :=
  immediate [(pllIdOk s.cfg id, .badPllId)]
    (fun s =>
      if (pllAt s id).consumerCount = 0 then
        raiseFatal s.env.picked false .consumerAccountingViolation (pllFaultInfo id 2) s
      else endOp s.env.picked .ok (setConsumers id ((pllAt s id).consumerCount - 1) s))
    s

end Sys2Proof.Machine
end

