-- ==== Sys2Proof/Machine/Sleep.lean ====
section
/-! DEFINITION. SleepSequencer (42_sleep.md): BUILD_PARAMS, PROGRAM, the REGDMA toggles, ENTER, ENTER_SLEEP,
CFG_PWR_MODE_DEFAULTS, and the hardware side of the handshake: the sleep-start reaction and the wake sequence with the
wait-time timer. -/

namespace Sys2Proof.Machine

/-- The HP words selected by `mode_flags` (R126). -/
def hpModeParams (z : SleepSeq) (mf : Word) : ModeParams := if targetsSleep mf then pmtAt z 2 else pmtAt z 1

/-- The LP words selected by `mode_flags` (R126). -/
def lpModeParams (z : SleepSeq) (mf : Word) : ModeParams := if lpSleep mf then pmtAt z 4 else pmtAt z 3

/-- The BUILD_PARAMS body (R122): `params` from the state of this micro-step (20_memory.md R56). -/
def doBuildParams (mf pd adj : Word) (s : State) : State :=
  let z := s.slp
  let budget := narrowBudget (wideBudget s.cfg z.lpClkFreqHz s.clk.cur.freqMhz mf pd adj)
  setSlp
    { z with
      params := { hp := hpModeParams z mf, lp := lpModeParams z mf, modeFlags := mf, pdFlags := pd, budget := budget },
      state := .paramsBuilt, programmed := false }
    s

/-- The fields PROGRAM writes, in order (R129). -/
def programFields (cfg : Cfg) (regdma : Bool) : List RegField :=
  [.hp .pwr, .hp .ckg, .hp .ana, .hp .pad, .hp .ret, .lp .pwr, .lp .ckg, .lp .ana, .lp .pad, .lp .ret, .pdFlags] ++
    (if regdma then [.bkp .a2s, .bkp .s2a] else []) ++
    (if regdma && cfg.hasModemMode then [.bkp .m2a] else []) ++
    budgetFields.map RegField.wait

/-- The PROGRAM body (R128, R129). -/
def programScript (s : State) : List Micro :=
  (programFields s.cfg s.slp.regdmaEnabled).map Micro.progWrite ++ [.setProgrammed]

/-- The value PROGRAM writes to a field (R129). -/
def progValue (z : SleepSeq) : RegField → Word
  | .hp w => modeWord z.params.hp w
  | .lp w => modeWord z.params.lp w
  | .pdFlags => z.params.pdFlags
  | .bkp e => bkpAt z e
  | .wait f => budgetGet z.params.budget f
  | _ => 0

/-- What a PROGRAM write changes in the block: a wait field also goes to `hwwait` (R129). -/
def progLatch (z : SleepSeq) : RegField → SleepSeq
  | .wait f => { z with hwwait := budgetSet z.hwwait f (budgetGet z.params.budget f) }
  | _ => z

/-- One write of the PROGRAM sequence (R129). -/
def doProgWrite (f : RegField) (s : State) : State := setSlp (progLatch s.slp f) (emit (.w f (progValue s.slp f)) s)

/-- The write of a REGDMA toggle with its flag (R133, R134). -/
def doRegdmaWrite (on : Bool) (s : State) : State :=
  setSlp { s.slp with regdmaEnabled := on } (emit (.w .regdmaBackupEn (bit on)) s)

/-! ### The handshake (R130) -/

/-- `W(WAKE_TYPE, deep)`. -/
def doWakeType (deep : Bool) (s : State) : State := setSlp { s.slp with wakeType := deep } (emit (.w .wakeType (bit deep)) s)

/-- `W(WAKE_EN, wk)`. -/
def doWakeEn (wk : Word) (s : State) : State := setSlp { s.slp with wakeEn := wk } (emit (.w .wakeEn wk) s)

/-- `W(REJECT_EN, rj)`; the masks are armed. -/
def doRejectEn (rj : Word) (s : State) : State :=
  setSlp { s.slp with rejectEn := rj, state := .armed } (emit (.w .rejectEn rj) s)

/-- `W(INT_CLR, 0x3)`. -/
def doIntClr (s : State) : State :=
  setSlp { s.slp with wakeupOccurred := false, sleepRejected := false } (emit (.w .intClr 3) s)

/-- `sleep_start_reaction()` (R139): an enabled reject line that is true now aborts the entry, otherwise the block sleeps. -/
def sleepStartReaction (rejectLines : Word) (z : SleepSeq) : SleepSeq :=
  if rejectLines &&& z.rejectEn ≠ 0 then { z with sleepRejected := true }
  else { z with asleep := true, state := .asleep, wtPhase := .off }

/-- `W(SLEEP_START, 1)` with the hardware's reaction in the same micro-step (R130, R139). -/
def doSleepStart (s : State) : State := setSlp (sleepStartReaction s.env.rejectLines s.slp) (emit (.w .sleepStart 1) s)

/-- The result of a status poll that saw a bit: `Rejected` wins (R131). -/
def pollResult (z : SleepSeq) : SleepResult := if z.sleepRejected then .rejected else .woken

/-- One poll of the wake-or-reject loop (R130): no timeout (R141). -/
def doPollStatus (rest : List Micro) (s : State) : State :=
  let s1 := emit (.r .intStatus (intStatusWord s.slp)) s
  if s.slp.wakeupOccurred || s.slp.sleepRejected then
    advance rest
      (setSeq { s1.seq with result := some (pollResult s.slp) } (setSlp { s1.slp with state := .wokenOrRejected } s1))
  else advance (.pollStatus :: rest) s1

/-- One poll of the auxiliary-idle loop (R130, R138): no timeout. -/
def doPollAux (rest : List Micro) (answer : Bool) (s : State) : State :=
  advance (if answer then rest else .pollAux :: rest) (emit (.r .auxIdle (bit answer)) s)

/-- The last micro-step of `enter_body` (R130). -/
def doEnterEnd (s : State) : State := setSlp { s.slp with state := .idle, programmed := false } s

/-- `enter_body(wk, rj, deep)` (R130). -/
def enterScript (deep : Bool) (wk rj : Word) : List Micro :=
  [.wakeType deep, .wakeEn wk, .rejectEn rj, .intClr, .sleepStart, .pollStatus, .pollAux, .enterEnd]

/-! ### The wake sequence and the wait-time timer (R140) -/

/-- WakeTrigger. -/
def wakeTrigger (s : State) : State :=
  if s.slp.asleep = true ∧ s.slp.wtPhase = .off ∧ s.env.wakeLines &&& s.slp.wakeEn ≠ 0 then
    setSlp { s.slp with wtPhase := .lpWait, wtCount := s.slp.hwwait.lpWait } s
  else s

/-- LpTick. -/
def lpTick (s : State) : State :=
  if s.slp.asleep = true ∧ s.slp.wtPhase = .lpWait ∧ s.slp.wtCount ≠ 0 then
    setSlp { s.slp with wtCount := s.slp.wtCount - 1 } s
  else s

/-- LpDone. -/
def lpDone (s : State) : State :=
  if s.slp.asleep = true ∧ s.slp.wtPhase = .lpWait ∧ s.slp.wtCount = 0 then
    setSlp { s.slp with wtPhase := .hpWait, wtCount := s.slp.hwwait.hpWait } s
  else s

/-- HpTick. -/
def hpTick (s : State) : State :=
  if s.slp.asleep = true ∧ s.slp.wtPhase = .hpWait ∧ s.slp.wtCount ≠ 0 then
    setSlp { s.slp with wtCount := s.slp.wtCount - 1 } s
  else s

/-- HpDone. -/
def hpDone (s : State) : State :=
  if s.slp.asleep = true ∧ s.slp.wtPhase = .hpWait ∧ s.slp.wtCount = 0 then
    setSlp { s.slp with wtPhase := .off, asleep := false, wakeupOccurred := true } s
  else s

/-! ### The ops -/

/-- BUILD_PARAMS (R122). -/
def execBuildParams (modeFlags pdFlags adjustUs : Word) (s : State) : Host.Outcome State Fault Refusal :=
  sequenced
    [(modeFlagsOk s.cfg modeFlags, .badMode),
      (decide (1 ≤ s.slp.lpClkFreqHz.toNat), .invalidConfig),
      (budgetFits (wideBudget s.cfg s.slp.lpClkFreqHz s.clk.cur.freqMhz modeFlags pdFlags adjustUs), .budgetOverflow)]
    (fun s => s) [.buildParams modeFlags pdFlags adjustUs, .finish .budget] s

/-- PROGRAM (R128). -/
def execProgram (s : State) : Host.Outcome State Fault Refusal :=
  sequenced [(decide (s.slp.state = .paramsBuilt), .seqOrder)] (fun s => s) [.program, .finish .plain] s

/-- ENTER (R130). -/
def execEnter (deep : Bool) (wakeup reject : Word) (s : State) : Host.Outcome State Fault Refusal :=
  sequenced [(decide (s.slp.state = .paramsBuilt) && s.slp.programmed, .seqOrder)] (fun s => s)
    (enterScript deep wakeup reject ++ [.finish .sleepResult]) s

/-- REGDMA_EN (R133): the write only when not enabled already. -/
def execRegdmaEn (s : State) : Host.Outcome State Fault Refusal :=
  sequenced [] (fun s => s) (if s.slp.regdmaEnabled then [.finish .plain] else [.regdmaWrite true, .finish .plain]) s

/-- REGDMA_DIS (R134): the write only when enabled. -/
def execRegdmaDis (s : State) : Host.Outcome State Fault Refusal :=
  sequenced [] (fun s => s) (if s.slp.regdmaEnabled then [.regdmaWrite false, .finish .plain] else [.finish .plain]) s

/-- The acceptance effect of ENTER_SLEEP: discard built parameters, save the configuration (R135, R121). -/
def saveConfig (s : State) : State := setSlp { (discardParams s).slp with savedCfg := s.clk.cur } (discardParams s)

/-- ENTER_SLEEP (R135): the checks at the crystal frequency, then the five bodies. -/
def execEnterSleep (deep : Bool) (wakeup reject modeFlags pdFlags adjustUs : Word) (s : State) :
    Host.Outcome State Fault Refusal :=
  sequenced
    [(modeFlagsOk s.cfg modeFlags, .badMode),
      (decide (1 ≤ s.slp.lpClkFreqHz.toNat), .invalidConfig),
      (budgetFits (wideBudget s.cfg s.slp.lpClkFreqHz s.cfg.xtalFreqMhz modeFlags pdFlags adjustUs), .budgetOverflow)]
    saveConfig
    ([.setConfig (xtalNative s.cfg), .buildParams modeFlags pdFlags adjustUs, .program] ++
      enterScript deep wakeup reject ++ [.restoreSaved, .finish .sleepResult])
    s

/-- CFG_PWR_MODE_DEFAULTS (R136): a read of the defaults, not of the working copy. -/
def execCfgPwrModeDefaults (k : BitVec 3) (s : State) : Host.Outcome State Fault Refusal :=
  immediate [(modeIndexOk s.cfg k.toNat, .badMode)]
    (fun s => endOp s.env.picked .ok (setResMode s.env.picked ((s.cfg.pmtDefault[k.toNat]?).getD ModeParams.zero) s)) s

end Sys2Proof.Machine
end

