-- ==== Sys2Proof/Machine/Dispatch.lean ====
section
/-! DEFINITION. One arm per op: the acceptance micro-step of an op issued by the core the arbiter has picked
(30_encoding.md R72); for an immediate op that is the whole op. -/

namespace Sys2Proof.Machine

def exec (i : Instr) (s : State) : Host.Outcome State Fault Refusal :=
  match i with
  | .setCpuFreq freqMhz => Sys2Proof.Machine.execSetCpuFreq freqMhz s
  | .getCpuFreq => Sys2Proof.Machine.execGetCpuFreq s
  | .pllAddConsumer id => Sys2Proof.Machine.execPllAddConsumer id s
  | .pllRemoveConsumer id => Sys2Proof.Machine.execPllRemoveConsumer id s
  | .enterSleep deep wakeup reject modeFlags pdFlags adjustUs => Sys2Proof.Machine.execEnterSleep deep wakeup reject modeFlags pdFlags adjustUs s
  | .cfgPwrModeDefaults k => Sys2Proof.Machine.execCfgPwrModeDefaults k s
  | .resolve freqMhz => Sys2Proof.Machine.execResolve freqMhz s
  | .setConfig source sourceFreqMhz divider freqMhz => Sys2Proof.Machine.execSetConfig source sourceFreqMhz divider freqMhz s
  | .pllEnable id => Sys2Proof.Machine.execPllEnable id s
  | .pllCfgCal id xtalFreqMhz targetFreqMhz => Sys2Proof.Machine.execPllCfgCal id xtalFreqMhz targetFreqMhz s
  | .pllDisable id => Sys2Proof.Machine.execPllDisable id s
  | .buildParams modeFlags pdFlags adjustUs => Sys2Proof.Machine.execBuildParams modeFlags pdFlags adjustUs s
  | .program => Sys2Proof.Machine.execProgram s
  | .enter deep wakeup reject => Sys2Proof.Machine.execEnter deep wakeup reject s
  | .regdmaEn => Sys2Proof.Machine.execRegdmaEn s
  | .regdmaDis => Sys2Proof.Machine.execRegdmaDis s

end Sys2Proof.Machine
end

