-- ==== Sys2Proof/Machine/Sequencer.lean ====
section
/-! DEFINITION. The CSC sequencer (00_scope.md R7): the next micro-step of the running sequenced op (10_state.md R12). -/

namespace Sys2Proof.Machine

/-- What an unmarked control line of the pseudocode stands for in the state where it is reached; `none` for a line that is a
micro-step or belongs to one. -/
def expand (s : State) : Micro → Option (List Micro)
  | .setConfig t => some (setConfigScript s t)
  | .restoreSaved => some (setConfigScript s s.slp.savedCfg)
  | .bringUp t oldMhz => some (bringUpScript s t oldMhz)
  | .apply t => some (applyScript s.cfg s.clk.cur t)
  | .program => some (programScript s)
  | _ => none

/-- The script with its head resolved to a micro-step. Four replacements are enough: `set_config`, then its step 3, then
`apply`. -/
def resolveHead : Nat → State → List Micro → List Micro
  | 0, _, script => script
  | _ + 1, _, [] => []
  | n + 1, s, m :: rest =>
    match expand s m with
    | some l => resolveHead n s (l ++ rest)
    | none => m :: rest

/-- One micro-step, with the environment's answer if it is a poll of `CAL_DONE` or `AUX_IDLE`. A control line never stands
here (`resolveHead`); if it did, nothing would happen. -/
def runMicro (m : Micro) (rest : List Micro) (answer : Bool) (s : State) : State :=
  match m with
  | .setConfig _ => s
  | .restoreSaved => s
  | .bringUp _ _ => s
  | .apply _ => s
  | .program => s
  | .applyWrite t f => advance rest (doApplyWrite t f s)
  | .applyEnd t => advance rest (doApplyEnd t s)
  | .dropPll p => advance rest (doDropPll p s)
  | .stepFive oldMhz newMhz => advance rest (doStepFive oldMhz newMhz s)
  | .pllEnable id => advance rest (pllEnableBody id s)
  | .pllDisable id => doPllDisable id rest s
  | .calDivide id xtalMhz targetMhz => advance rest (doCalDivide id xtalMhz targetMhz s)
  | .calStart id => advance rest (doCalStart id s)
  | .calPoll id oldMhz => doCalPoll id oldMhz rest answer s
  | .calStop id targetMhz => advance rest (doCalStop id targetMhz s)
  | .buildParams mf pd adj => advance rest (doBuildParams mf pd adj s)
  | .progWrite f => advance rest (doProgWrite f s)
  | .regdmaWrite on => advance rest (doRegdmaWrite on s)
  | .wakeType deep => advance rest (doWakeType deep s)
  | .wakeEn mask => advance rest (doWakeEn mask s)
  | .rejectEn mask => advance rest (doRejectEn mask s)
  | .intClr => advance rest (doIntClr s)
  | .sleepStart => advance rest (doSleepStart s)
  | .pollStatus => doPollStatus rest s
  | .pollAux => doPollAux rest answer s
  | .enterEnd => advance rest (doEnterEnd s)
  | .setProgrammed => advance (.setProgrammed :: rest) s
  | .finish e => advance (.finish e :: rest) s

/-- The next micro-step of the running sequenced op (60_exceptions.md R171 (d)); nothing while no op runs, and nothing in HALT
(R156). -/
def sequencerStep (answer : Bool) (s : State) : State :=
  if s.seq.busy = true ∧ s.fault.halted = false then
    match resolveHead 4 s s.seq.script with
    | [] => s
    | m :: rest => runMicro m rest answer s
  else s

end Sys2Proof.Machine
end

