-- ==== Sys2Proof/Machine/Window.lean ====
section
/-! DEFINITION. The host-facing register window (10_state.md R35, R36; 20_memory.md R40 to R44): what each offset reads and what
a write to it does. Offsets are multiples of 4 below 0x1000. -/

namespace Sys2Proof.Machine

/-- A field of a budget view `base + 4·j` (R35). -/
def budgetView (b : SleepBudget) (j : Nat) : Word :=
  match budgetFields[j]? with
  | some f => budgetGet b f
  | none => 0

/-- The PLL views at `0x080 + 0x10·id` (R35); 0 for an id the chip does not have. -/
def pllView (s : State) (id : Nat) (r : Nat) : Word :=
  let p := pllAt s (BitVec.ofNat 8 id)
  if id < s.cfg.nPll then
    match r with
    | 0x0 => pllStateWord p
    | 0x4 => p.configuredFreqMhz
    | 0x8 => p.consumerCount
    | _ => 0
  else 0

/-- The global views below 0x040 (R35). -/
def globalView (s : State) (off : Nat) : Word :=
  match off with
  | 0x000 => clkStateWord s.clk.state
  | 0x004 => s.clk.cur.sourceFreqMhz
  | 0x008 => packFraction s.clk.cur.divider
  | 0x00C => s.clk.cur.freqMhz
  | 0x010 => s.clk.ticksPerUs
  | 0x014 => s.clk.cycleCounter
  | 0x018 => s.curPllFreqMhz
  | 0x01C => s.slp.lpClkFreqHz
  | 0x020 => slpStateWord s.slp
  | 0x024 => s.slp.wakeEn
  | 0x028 => s.slp.rejectEn
  | 0x02C => intStatusWord s.slp
  | 0x030 => faultWord s.fault
  | 0x034 => busyWord s.seq
  | 0x038 => s.slp.wtCount
  | _ => 0

/-- The registers of a mailbox, by their offset in it (R36); `CMD` is write-only and reads 0. -/
def mailboxRead (m : Mailbox) (r : Nat) : Word :=
  if r = 0x18 then statusWord m
  else if 0x04 ≤ r ∧ r ≤ 0x14 then (m.arg[(r - 0x04) / 4]?).getD 0
  else if 0x1C ≤ r ∧ r ≤ 0x2C then (m.res[(r - 0x1C) / 4]?).getD 0
  else 0

/-- Word `w` of a ModeParams record as a table register (R36). -/
def modeWordAt (p : ModeParams) (w : Nat) : Word :=
  match w with
  | 0 => p.pwr
  | 1 => p.ckg
  | 2 => p.ana
  | 3 => p.pad
  | 4 => p.ret
  | _ => 0

/-- Word `w` of a ModeParams record replaced. -/
def setModeWordAt (p : ModeParams) (w : Nat) (v : Word) : ModeParams :=
  match w with
  | 0 => { p with pwr := v }
  | 1 => { p with ckg := v }
  | 2 => { p with ana := v }
  | 3 => { p with pad := v }
  | 4 => { p with ret := v }
  | _ => p

/-- `PMT[k]` exists (R36): reserved for the Modem mode on a chip without it. -/
def pmtExists (cfg : Cfg) (k : Nat) : Bool := modeIndexOk cfg k

/-- `BKP[e]` exists (R36). -/
def bkpExists (cfg : Cfg) (e : Nat) : Bool := decide (e ≤ 2) && (decide (e ≠ 2) || cfg.hasModemMode)

/-- The core whose mailbox holds an offset in 0x100 .. 0x2FF (R36). -/
def mailboxCore (off : Nat) : Core := Fin.ofNat 8 ((off - 0x100) / 0x40)

/-- The mailbox at an offset belongs to a core the chip has (R36). -/
def mailboxExists (cfg : Cfg) (off : Nat) : Bool := decide ((off - 0x100) / 0x40 < cfg.nCores)

/-- What a read of the register at an offset returns (R35, R36); it has no side effect (20_memory.md R44). -/
def readReg (s : State) (off : Nat) : Word :=
  if off < 0x040 then globalView s off
  else if off < 0x05C then budgetView s.slp.params.budget ((off - 0x040) / 4)
  else if off < 0x060 then 0
  else if off < 0x07C then budgetView s.slp.hwwait ((off - 0x060) / 4)
  else if off < 0x080 then 0
  else if off < 0x100 then pllView s ((off - 0x080) / 0x10) ((off - 0x080) % 0x10)
  else if off < 0x300 then
    if mailboxExists s.cfg off then mailboxRead (mboxAt s (mailboxCore off)) ((off - 0x100) % 0x40) else 0
  else if off < 0x3A0 then
    let k := (off - 0x300) / 0x20
    if pmtExists s.cfg k then modeWordAt ((s.slp.pmt[k]?).getD ModeParams.zero) ((off - 0x300) % 0x20 / 4) else 0
  else if off < 0x3AC then
    let e := (off - 0x3A0) / 4
    if bkpExists s.cfg e then (s.slp.bkp[e]?).getD 0 else 0
  else 0

/-- A write of `CMD[c]` issues an op: `PENDING` set, `DONE` cleared; ignored while `PENDING` or `RUNNING` (R36). -/
def issue (m : Mailbox) (v : Word) : Mailbox :=
  if m.pending || m.running then m else { m with cmd := v, pending := true, done := false }

/-- A write into a mailbox (R36): `CMD` and `ARG`; the rest is read only. -/
def mailboxWrite (m : Mailbox) (r : Nat) (v : Word) : Mailbox :=
  if r = 0x00 then issue m v
  else if 0x04 ≤ r ∧ r ≤ 0x14 then { m with arg := m.arg.setIfInBounds ((r - 0x04) / 4) v }
  else m

/-- What a write to the register at an offset does (R35, R36): `LP_CLK_FREQ_HZ`, the mailboxes, and `PMT` and `BKP` unless
`busy`; every other write is ignored. -/
def writeReg (off : Nat) (v : Word) (s : State) : State :=
  if off = 0x01C then setSlp { s.slp with lpClkFreqHz := v } s
  else if 0x100 ≤ off ∧ off < 0x300 then
    if mailboxExists s.cfg off then
      setMbox (mailboxCore off) (mailboxWrite (mboxAt s (mailboxCore off)) ((off - 0x100) % 0x40) v) s
    else s
  else if 0x300 ≤ off ∧ off < 0x3A0 then
    let k := (off - 0x300) / 0x20
    if pmtExists s.cfg k = true ∧ s.seq.busy = false then
      setSlp
        { s.slp with
          pmt := s.slp.pmt.setIfInBounds k
            (setModeWordAt ((s.slp.pmt[k]?).getD ModeParams.zero) ((off - 0x300) % 0x20 / 4) v) }
        s
    else s
  else if 0x3A0 ≤ off ∧ off < 0x3AC then
    let e := (off - 0x3A0) / 4
    if bkpExists s.cfg e = true ∧ s.seq.busy = false then setSlp { s.slp with bkp := s.slp.bkp.setIfInBounds e v } s
    else s
  else s

/-- The offset of an address in the window (20_memory.md R40, R46). -/
def windowOffset (cfg : Cfg) (addr : Word) : Nat := (addr - cfg.cscBase).toNat

/-- The access is admitted: 32 bits wide at a multiple of 4 (20_memory.md R42). -/
def accessAdmitted (addr : Word) (bytes : Nat) : Bool := decide (bytes = 4) && decide (addr.toNat % 4 = 0)

/-- A host write (20_memory.md R40 to R44): refused with no state change when it is not an aligned word; outside the window the
block is not the target (log 12). -/
def hostWrite (addr : Word) (bytes : Nat) (v : Word) (s : State) : Host.Outcome State Fault Refusal :=
  if windowOffset s.cfg addr < 0x1000 then
    .next (if accessAdmitted addr bytes then writeReg (windowOffset s.cfg addr) v s else s)
  else .fault .outsideWindow

/-- A host read: the value goes to `readData`, and a refused access returns none (20_memory.md R42, log 13). -/
def hostRead (addr : Word) (bytes : Nat) (s : State) : Host.Outcome State Fault Refusal :=
  if windowOffset s.cfg addr < 0x1000 then
    .next
      (setEnv
        { s.env with readData := if accessAdmitted addr bytes then some (readReg s (windowOffset s.cfg addr)) else none } s)
  else .fault .outsideWindow

end Sys2Proof.Machine
end

