-- ==== Sys2Proof/Machine/System.lean ====
section
/-! DEFINITION. What each action of 60_exceptions.md R171 does to the state, and which action comes next. -/

namespace Sys2Proof.Machine

/-- The arbiter picks the pending command of core `c` (30_encoding.md R72): an illegal word ends `ILLEGAL_CMD` before anything
else, a legal one runs with its `ARG` sampled now. A core that does not exist or has no pending command is no enabled choice,
and nothing happens (log 4). -/
def acceptCommand (c : Core) (s : State) : Host.Outcome State Fault Refusal :=
  if c.val < s.cfg.nCores ∧ (mboxAt s c).pending = true then
    match decode (mboxAt s c).cmd (mboxAt s c).arg with
    | .ok i => exec i (setEnv { s.env with picked := c } s)
    | .error _ => .next (endOp c .illegalCmd (setEnv { s.env with picked := c } s))
  else .next s

/-- RESET (70_reset_and_hazards.md R180, R181): every element of the block at its reset value, the trace empty; the inputs and
the agenda are not the block's (log 14). -/
def resetBlock (s : State) : State :=
  { State.resetOf s.cfg with env := { s.env with picked := 0, readData := none } }

/-- One action. -/
def act (a : Action) (s : State) : Host.Outcome State Fault Refusal :=
  match a with
  | .hostWrite addr bytes v => hostWrite addr bytes v s
  | .hostRead addr bytes => hostRead addr bytes s
  | .accept c => acceptCommand c s
  | .sequencer answer => .next (sequencerStep answer s)
  | .wakeTrigger => .next (wakeTrigger s)
  | .lpTick => .next (lpTick s)
  | .lpDone => .next (lpDone s)
  | .hpTick => .next (hpTick s)
  | .hpDone => .next (hpDone s)
  | .setWakeLines v => .next (setEnv { s.env with wakeLines := v } s)
  | .setRejectLines v => .next (setEnv { s.env with rejectLines := v } s)
  | .addCycles n => .next (setClk { s.clk with cycleCounter := s.clk.cycleCounter + n } s)
  | .reset => .next (resetBlock s)

/-- The next action: the head of the agenda, or the free choice of the arbiter where the agenda is empty (log 2). -/
def nextAction (s : State) : Action :=
  match s.env.agenda with
  | a :: _ => a
  | [] => Config.arbiter s.env.choices

/-- The state with that choice taken: the agenda popped, or the counter of free choices advanced. -/
def choiceTaken (s : State) : State :=
  match s.env.agenda with
  | _ :: rest => setEnv { s.env with agenda := rest } s
  | [] => setEnv { s.env with choices := s.env.choices + 1 } s

/-- A command word and operand registers placed as core 0's pending command, and its acceptance as the very next action. -/
def placeCommand (cmd : Word) (a : Regs5) (s : State) : State :=
  setEnv { s.env with agenda := .accept 0 :: s.env.agenda }
    (setMbox 0 { mboxAt s 0 with cmd := cmd, arg := a, pending := true, done := false } s)

end Sys2Proof.Machine
end

