-- ==== Sys2Proof/Machine/Step.lean ====
section
/-! DEFINITION. One step of the system (60_exceptions.md R171), and the placing of a command as the next thing that runs. -/

namespace Sys2Proof.Machine

/-- One step: the next action, taken. -/
def step (s : State) : Host.Outcome State Fault Refusal := act (nextAction s) (choiceTaken s)

/-- `s` with the command word given as core 0's pending command, operand registers of zeros, and its acceptance as the very next
action (log 19). -/
def State.withFetchWord (s : State) (nbits w : Nat) : State :=
  placeCommand (tableCommand nbits w) (Vector.replicate 5 0) s

end Sys2Proof.Machine
end

