-- ==== Sys2Proof/WellFormed.lean ====
section
/-! DEFINITION. Well-formedness: of a chip description (00_scope.md R5, 10_state.md R16) and of an op's operands against it
(the checks of the op rules that depend on nothing but `Cfg` and the operands). -/

namespace Sys2Proof

open Sys2Proof.Machine

/-- A `PLL_TABLE` entry is well-formed (10_state.md R16 (a)). -/
def pllEntryOk (cfg : Cfg) (e : ClockConfig) : Bool :=
  (match e.source with
    | .pll id => pllIdOk cfg id
    | _ => false) &&
    decide (1 ≤ e.sourceFreqMhz.toNat) && fractionOk cfg e.divider &&
    decide (divRound cfg e.sourceFreqMhz.toNat e.divider = some e.freqMhz.toNat)

/-- The decidable part of a well-formed chip description: the types of 00_scope.md R5 (with the limits of 10_state.md R35)
and R16 (a), (b). -/
def cfgOk (cfg : Cfg) : Bool :=
  decide (1 ≤ cfg.xtalFreqMhz.toNat) && decide (1 ≤ cfg.fastRcFreqMhz.toNat) &&
    decide (1 ≤ cfg.nPll ∧ cfg.nPll ≤ 8) && decide (1 ≤ cfg.nCores ∧ cfg.nCores ≤ 8) &&
    cfg.legalXtalDivs.contains 1 && cfg.legalXtalDivs.all (fun d => decide (1 ≤ d)) &&
    cfg.legalRcDivs.all (fun d => decide (1 ≤ d)) &&
    decide (1 ≤ cfg.calTimeoutPolls) && decide (1 ≤ cfg.auxIdleBound) &&
    decide (cfg.cscBase.extractLsb' 0 12 = 0) && cfg.pllTable.all (pllEntryOk cfg)

/-- 10_state.md R16 (c): every settled frequency of a valid configuration is within its limit. -/
def settledWithinLimits (cfg : Cfg) : Prop :=
  ∀ k : ClockConfig, validConfig cfg k = true → withinLimits cfg (settledFreqs cfg k) = true

/-- 10_state.md R16 (d): the write sequence between any two valid configurations keeps every bus within its limit at every
intermediate instant. -/
def movesWithinLimits (cfg : Cfg) : Prop :=
  ∀ a b : ClockConfig, validConfig cfg a = true → validConfig cfg b = true →
    ∀ n : Nat, withinLimits cfg (pointFreqs cfg (replayPoint cfg a b n)) = true

/-- A well-formed chip description (10_state.md R16). -/
structure CfgWellFormed (cfg : Cfg) : Prop where
  ok : cfgOk cfg = true
  settled : settledWithinLimits cfg
  moves : movesWithinLimits cfg

/-- The operands of an op name things the chip has: those of its checks that depend on `Cfg` and the operands only. Every op
can be encoded and issued whether it is well-formed or not; one that is not is refused by its own check. -/
def wellFormed (cfg : Cfg) : Instr → Bool
  | .setCpuFreq f => (resolve cfg f).isSome
  | .getCpuFreq => true
  | .pllAddConsumer id => pllIdOk cfg id
  | .pllRemoveConsumer id => pllIdOk cfg id
  | .enterSleep _ _ _ mf _ _ => modeFlagsOk cfg mf
  | .cfgPwrModeDefaults k => modeIndexOk cfg k.toNat
  | .resolve f => (resolve cfg f).isSome
  | .setConfig src sf d f => (decodeValidConfig cfg src sf d f).isSome
  | .pllEnable id => pllIdOk cfg id
  | .pllCfgCal id xtal target => pllIdOk cfg id && decide (1 ≤ xtal.toNat) && decide (1 ≤ target.toNat)
  | .pllDisable id => pllIdOk cfg id
  | .buildParams mf _ _ => modeFlagsOk cfg mf
  | .program => true
  | .enter _ _ _ => true
  | .regdmaEn => true
  | .regdmaDis => true

end Sys2Proof
end

