-- ==== Sys2Proof/Safety.lean ====
section
/-! DEFINITION. The terms claims are stated in: which states are ready, how an op ends, what stays the same, uninterrupted runs
of the sequencer, the bus frequencies of a state, and the invariants of the machine. -/

namespace Sys2Proof.Machine

/-! ### Runs -/

/-- The block can accept a sequenced op at once: not in HALT and no op running (30_encoding.md R72). -/
def Ready (s : State) : Prop := s.fault.halted = false ∧ s.seq.busy = false

/-- Uninterrupted micro-steps of the running op, one per answer in the list. -/
def runSequencer (answers : List Bool) (s : State) : State := answers.foldl (fun u a => sequencerStep a u) s

/-- Actions taken one after the other, stopping where one does. -/
def runActions : List Action → State → Host.Outcome State Fault Refusal
  | [], s => .next s
  | a :: rest, s =>
    match act a s with
    | .next t => runActions rest t
    | .fault r => .fault r
    | .refused r => .refused r

/-- An op is sequenced (30_encoding.md R62). -/
def isSequenced : Instr → Bool
  | .setCpuFreq _ => true
  | .getCpuFreq => false
  | .pllAddConsumer _ => false
  | .pllRemoveConsumer _ => false
  | .enterSleep _ _ _ _ _ _ => true
  | .cfgPwrModeDefaults _ => false
  | .resolve _ => false
  | .setConfig _ _ _ _ => true
  | .pllEnable _ => true
  | .pllCfgCal _ _ _ => true
  | .pllDisable _ => true
  | .buildParams _ _ _ => true
  | .program => true
  | .enter _ _ _ => true
  | .regdmaEn => true
  | .regdmaDis => true

/-- The wake sequence of 42_sleep.md R140 with no other action between its steps: the trigger, the LP ticks, the HP ticks. -/
def wakeSchedule (b : SleepBudget) : List Action :=
  [.wakeTrigger] ++ List.replicate b.lpWait.toNat .lpTick ++ [.lpDone] ++ List.replicate b.hpWait.toNat .hpTick ++ [.hpDone]

/-- An action that neither resets the block nor raises a wake line of the mask. -/
def noWakeIn (mask : Word) : Action → Prop
  | .reset => False
  | .setWakeLines v => v &&& mask = 0
  | _ => True

/-- Asleep with no wake in sight: the running op is at its status poll and no enabled wake line is up. -/
def SleepingIdle (s : State) : Prop :=
  s.seq.busy = true ∧ s.seq.script.head? = some .pollStatus ∧ s.slp.asleep = true ∧ s.slp.wtPhase = .off ∧
    s.slp.wakeupOccurred = false ∧ s.slp.sleepRejected = false ∧ s.env.wakeLines &&& s.slp.wakeEn = 0

/-! ### What changed and what did not -/

/-- The mailbox of an op that has ended with code `k`: `CMD` and `ARG` as they were, `RES` not spoken of. -/
def EndedWith (k : StatusCode) (m m' : Mailbox) : Prop :=
  m'.cmd = m.cmd ∧ m'.arg = m.arg ∧ m'.pending = false ∧ m'.running = false ∧ m'.done = true ∧ m'.code = codeByte k

/-- Every mailbox but that of core `c` is unchanged. -/
def OtherMailboxesSame (c : Core) (s t : State) : Prop := ∀ d : Core, d ≠ c → mboxAt t d = mboxAt s d

/-- Everything but the mailboxes is unchanged. -/
def SameButMailboxes (s t : State) : Prop := t = { s with mbox := t.mbox }

/-- Everything but the mailboxes and the op sequencing is unchanged. -/
def SameButSequencing (s t : State) : Prop := t = { s with mbox := t.mbox, seq := t.seq }

/-- No op is running any more; the last one was core `c`'s. -/
def Released (c : Core) (t : State) : Prop :=
  t.seq = { busy := false, owner := c, script := [], result := none }

/-- The op of core `c` has ended with code `k`, and no other mailbox has changed. -/
def OpEnded (c : Core) (k : StatusCode) (s t : State) : Prop :=
  OtherMailboxesSame c s t ∧ EndedWith k (mboxAt s c) (mboxAt t c)

/-- The op of core `c` has ended with code `k` and left `RES` alone. -/
def OpEndedPlain (c : Core) (k : StatusCode) (s t : State) : Prop :=
  OpEnded c k s t ∧ (mboxAt t c).res = (mboxAt s c).res

/-- The op of core `c` was turned away with code `k`: nothing but its `STATUS` has changed (60_exceptions.md R155). -/
def RefusedWith (c : Core) (k : StatusCode) (s t : State) : Prop :=
  SameButMailboxes s t ∧ OtherMailboxesSame c s t ∧ EndedWith k (mboxAt s c) (mboxAt t c) ∧
    (mboxAt t c).res = (mboxAt s c).res

/-- The op of core `c` has been accepted and runs (30_encoding.md R72): `PENDING` cleared, `RUNNING` and `busy` set, and every
other mailbox as it was. -/
def Accepted (c : Core) (s t : State) : Prop :=
  t.seq.busy = true ∧ t.seq.owner = c ∧ t.seq.result = none ∧ OtherMailboxesSame c s t ∧
    mboxAt t c = { mboxAt s c with pending := false, running := true }

/-- The `RES` registers in order. -/
def resList (s : State) (c : Core) : List Word := (mboxAt s c).res.toList

/-- The target of an op that asks for a clock configuration (40_clocktree.md R90, R94). -/
def clockTarget (cfg : Cfg) : Instr → Option ClockConfig
  | .setConfig src sf d f => decodeValidConfig cfg src sf d f
  | .setCpuFreq f => resolve cfg f
  | _ => none

/-- The events of `apply(t)` from the applied configuration `cur` (40_clocktree.md R87). -/
def applyEvents (cfg : Cfg) (cur t : ClockConfig) : List Event :=
  (applyOrder cfg cur t).map fun f => .w f (applyValue cfg t f)

/-- The configuration `set_config(t)` applies `t` from: `XTAL_NATIVE` where step 1 runs (40_clocktree.md R90). -/
def applyBase (s : State) (t : ClockConfig) : ClockConfig :=
  if goesThroughCrystal s t then xtalNative s.cfg else s.clk.cur

/-- The events of steps 1 and 2 of `set_config(t)` (40_clocktree.md R90): through the crystal, and the PLL that is left. -/
def leaveEvents (s : State) (t : ClockConfig) : List Event :=
  (if goesThroughCrystal s t then applyEvents s.cfg s.clk.cur (xtalNative s.cfg) else []) ++
  (match leftPll s.clk.cur t with
    | some p => if (pllAt s p).consumerCount = 0 then [.w (.pllPwr p) 0] else []
    | none => [])

/-- The events that bring PLL `q` up to its first calibration poll (41_pll.md R101, R103); `on` says that it is on already. -/
def calibrationStart (cfg : Cfg) (q : PllId) (on : Bool) (targetMhz : Word) : List Event :=
  (if on then [] else [.w (.pllPwr q) 1]) ++
    [.w (.pllDiv q) (Config.pllDivWords q cfg.xtalFreqMhz targetMhz), .b (.calStart q) 1]

/-- The events of step 3 where every poll of the calibration answers 0: no stop (R103). -/
def timedOutCalibration (cfg : Cfg) (q : PllId) (on : Bool) (targetMhz : Word) : List Event :=
  calibrationStart cfg q on targetMhz ++ List.replicate cfg.calTimeoutPolls (.r (.calDone q) 0)

/-- The events of step 3 where the first calibration poll, if there is one, answers 1 (40_clocktree.md R90, R91). -/
def bringUpEvents (s : State) (t : ClockConfig) : List Event :=
  match t.source with
  | .pll q =>
    if needsReconf s t then
      calibrationStart s.cfg q (pllAt s q).enabled t.sourceFreqMhz ++ [.r (.calDone q) 1, .b (.calStop q) 1]
    else if (pllAt s q).enabled then [] else [.w (.pllPwr q) 1]
  | _ => []

/-- The events of `set_config(t)` from a state, when the first calibration poll, if there is one, answers 1: through the
crystal, the PLL that is left, the PLL that is brought up, the target (40_clocktree.md R90). -/
def switchEvents (s : State) (t : ClockConfig) : List Event :=
  leaveEvents s t ++ bringUpEvents s t ++ applyEvents s.cfg (applyBase s t) t

/-- The writes of `enter_body`, down to the sleep start (42_sleep.md R130). -/
def handshakeWrites (deep : Bool) (wk rj : Word) : List Event :=
  [.w .wakeType (bit deep), .w .wakeEn wk, .w .rejectEn rj, .w .intClr 3, .w .sleepStart 1]

/-- The events of the PROGRAM sequence (42_sleep.md R129) for given parameters and backup words. -/
def programEvents (z : SleepSeq) (modem : Bool) : List Event :=
  let p := z.params
  let b := p.budget
  [.w (.hp .pwr) p.hp.pwr, .w (.hp .ckg) p.hp.ckg, .w (.hp .ana) p.hp.ana, .w (.hp .pad) p.hp.pad, .w (.hp .ret) p.hp.ret,
    .w (.lp .pwr) p.lp.pwr, .w (.lp .ckg) p.lp.ckg, .w (.lp .ana) p.lp.ana, .w (.lp .pad) p.lp.pad, .w (.lp .ret) p.lp.ret,
    .w .pdFlags p.pdFlags] ++
  (if z.regdmaEnabled then [.w (.bkp .a2s) z.bkp[0], .w (.bkp .s2a) z.bkp[1]] else []) ++
  (if z.regdmaEnabled && modem then [.w (.bkp .m2a) z.bkp[2]] else []) ++
  [.w (.wait .lpWait) b.lpWait, .w (.wait .hpWait) b.hpWait, .w (.wait .xtalStableWait) b.xtalStableWait,
    .w (.wait .pllStableWait) b.pllStableWait, .w (.wait .modemWakeupWait) b.modemWakeupWait,
    .w (.wait .regdmaWait) b.regdmaWait, .w (.wait .totalGuardTime) b.totalGuardTimeUs]

/-- Every PLL controller but that of `id` is unchanged. -/
def OtherPllsSame (id : PllId) (s t : State) : Prop := ∀ j : PllId, j ≠ id → pllAt t j = pllAt s j

/-- The restore of ENTER_SLEEP from `s` on PLL `p` calibrates it again: its frequency after the switch to the crystal, which
powers it down where no consumer holds it, is not the applied one (40_clocktree.md R90, R91). -/
def recalibrates (s : State) (p : PllId) : Prop :=
  (if (pllAt s p).consumerCount = 0 then 0 else (pllAt s p).configuredFreqMhz) ≠ s.clk.cur.sourceFreqMhz

/-- ENTER_SLEEP from `s` is through (42_sleep.md R135): the configuration, the tick and the PLLs are those it found, the counter
has been scaled to the crystal and back, the current PLL frequency is that of the PLL calibrated again, if one was (41_pll.md
R103, R106), and chip, fault record and environment are as they were. -/
def ClockRestored (s u : State) : Prop :=
  u.clk.cur = s.clk.cur ∧ u.clk.state = stateOf s.clk.cur.source ∧ u.clk.hw.mux = s.clk.cur.source ∧
    u.clk.hw.cpuDiv = s.clk.cur.divider ∧
    (∀ b ∈ chain s.cfg, busDiv u.clk.hw.busDiv b = busDiv (busDivs s.cfg s.clk.cur) b) ∧
    u.clk.ticksPerUs = s.clk.cur.freqMhz ∧
    u.clk.cycleCounter =
      rescale (rescale s.clk.cycleCounter s.clk.cur.freqMhz s.cfg.xtalFreqMhz) s.cfg.xtalFreqMhz s.clk.cur.freqMhz ∧
    (∀ p, s.clk.cur.source = .pll p →
      (recalibrates s p →
        pllAt u p = { pllAt s p with
          enabled := true, configuredFreqMhz := s.clk.cur.sourceFreqMhz, calState := .calIdle,
          calPollsLeft := s.cfg.calTimeoutPolls - 1 } ∧
        u.curPllFreqMhz = s.clk.cur.sourceFreqMhz ∧ u.lastCalPll = p) ∧
      (¬recalibrates s p →
        pllAt u p = { pllAt s p with
          enabled := true, configuredFreqMhz := s.clk.cur.sourceFreqMhz,
          calState := if (pllAt s p).consumerCount = 0 then .calIdle else (pllAt s p).calState } ∧
        u.curPllFreqMhz = (if (pllAt s p).consumerCount = 0 ∧ s.lastCalPll = p then 0 else s.curPllFreqMhz) ∧
        u.lastCalPll = s.lastCalPll)) ∧
    ((∀ p, s.clk.cur.source ≠ .pll p) → u.curPllFreqMhz = s.curPllFreqMhz ∧ u.lastCalPll = s.lastCalPll) ∧
    (∀ j, s.clk.cur.source ≠ .pll j → pllAt u j = pllAt s j) ∧
    u.cfg = s.cfg ∧ u.fault = s.fault ∧ u.env = s.env

/-- The restore of ENTER_SLEEP from `s` has timed out on PLL `p` (40_clocktree.md R93, 60_exceptions.md R157 (b)): HALT on the
crystal, the hardware fields, the tick and the counter the crystal's, the PLL on and not configured, no `RES` register
written. -/
def RestoreTimedOut (s : State) (p : PllId) (u : State) : Prop :=
  u.fault = { halted := true, code := 0x02, info := pllFaultInfo p 0 } ∧ Released s.env.picked u ∧
    OpEndedPlain s.env.picked .calibrationTimeout s u ∧
    u.slp.state = .idle ∧ u.slp.programmed = false ∧ u.slp.savedCfg = s.clk.cur ∧
    u.clk.cur = xtalNative s.cfg ∧ u.clk.state = .onCrystal ∧ u.clk.hw.mux = .crystal ∧
    u.clk.hw.cpuDiv = { int := 1, num := 0, den := 0 } ∧
    (∀ b ∈ chain s.cfg, busDiv u.clk.hw.busDiv b = busDiv (busDivs s.cfg (xtalNative s.cfg)) b) ∧
    u.clk.ticksPerUs = s.cfg.xtalFreqMhz ∧
    u.clk.cycleCounter = rescale s.clk.cycleCounter s.clk.cur.freqMhz s.cfg.xtalFreqMhz ∧
    pllAt u p = { pllAt s p with
      enabled := true, configuredFreqMhz := 0, calState := .calFailed, calPollsLeft := 0 } ∧
    OtherPllsSame p s u ∧ u.lastCalPll = s.lastCalPll ∧
    u.curPllFreqMhz = (if s.lastCalPll = p then 0 else s.curPllFreqMhz) ∧ u.cfg = s.cfg ∧ u.env = s.env

/-! ### Bus frequencies -/

/-- `src_mhz` (40_clocktree.md R85). -/
def srcMhz (s : State) : ClockSource → Word
  | .crystal => s.cfg.xtalFreqMhz
  | .fastRc => s.cfg.fastRcFreqMhz
  | .pll id => (pllAt s id).configuredFreqMhz

/-- The instant a state is at, as far as the bus frequencies go (R85). -/
def pointOf (s : State) : ClockPoint :=
  { srcMhz := srcMhz s s.clk.hw.mux, cpuDiv := s.clk.hw.cpuDiv, busDiv := s.clk.hw.busDiv }

/-- The instantaneous bus frequencies (R85). -/
def busFreqs (s : State) : List (Bus × Ratio) := pointFreqs s.cfg (pointOf s)

/-- The hardware fields hold what the applied configuration says, and its source runs at its frequency. -/
def Settled (s : State) : Prop :=
  s.clk.hw.mux = s.clk.cur.source ∧ s.clk.hw.cpuDiv = s.clk.cur.divider ∧
    (∀ b ∈ chain s.cfg, busDiv s.clk.hw.busDiv b = busDiv (busDivs s.cfg s.clk.cur) b) ∧
    srcMhz s s.clk.cur.source = s.clk.cur.sourceFreqMhz

/-- The frequencies of one list are at most those of the other, bus by bus, but for the last `k` buses of the chain. -/
def freqsAtMost (k : Nat) (fs gs : List (Bus × Ratio)) : Prop :=
  ∀ j : Nat, j + k < fs.length →
    ∀ p q : Bus × Ratio, fs[j]? = some p → gs[j]? = some q → ratioLe p.2 q.2 = true

/-! ### Invariants -/

/-- 10_state.md R11: `clk_state` is `state_of(cur.source)`. -/
def ClockStateInv (s : State) : Prop := s.clk.state = stateOf s.clk.cur.source

/-- 10_state.md R10, R12; 60_exceptions.md R156: at most one op runs, it is the owner's; a mailbox is pending, running, or
done, never two of them; nothing runs in HALT; no script is left when nothing runs. -/
structure MailboxInv (s : State) : Prop where
  halted : s.fault.halted = true → s.seq.busy = false
  idle : s.seq.busy = false → s.seq.script = []
  runs : ∀ c : Core, (mboxAt s c).running = true ↔ s.seq.busy = true ∧ s.seq.owner = c
  pendingNotRunning : ∀ c : Core, (mboxAt s c).pending = true → (mboxAt s c).running = false
  doneNotActive : ∀ c : Core, (mboxAt s c).done = true → (mboxAt s c).pending = false ∧ (mboxAt s c).running = false

/-- How two consecutive micro-steps of the sleep handshake stand in a script (42_sleep.md R130): the sleep start comes right
after the interrupt clear and right before the status poll. -/
def handshakeOrder (a b : Micro) : Prop := (b = .sleepStart → a = .intClr) ∧ (a = .sleepStart → b = .pollStatus)

/-- A script that holds the handshake in order to its end: a sleep start is not its last item. -/
def HandshakeScript (script : List Micro) : Prop :=
  List.IsChain handshakeOrder script ∧ script.getLast? ≠ some .sleepStart

/-- 42_sleep.md R131, R139, R140: the two status bits are never both set; asleep means that neither is and that the running op,
unless HALT has dropped it, is at its status poll; the timer runs only while asleep. -/
structure SleepBitsInv (s : State) : Prop where
  script : HandshakeScript s.seq.script
  notBoth : ¬(s.slp.wakeupOccurred = true ∧ s.slp.sleepRejected = true)
  starting : s.seq.script.head? = some .sleepStart → s.slp.wakeupOccurred = false ∧ s.slp.sleepRejected = false
  asleepBits : s.slp.asleep = true → s.slp.wakeupOccurred = false ∧ s.slp.sleepRejected = false
  asleepPolls : s.slp.asleep = true →
    (s.fault.halted = true ∧ s.seq.script = []) ∨ (s.seq.busy = true ∧ s.seq.script.head? = some .pollStatus)
  timer : s.slp.wtPhase ≠ .off → s.slp.asleep = true

/-- A configuration names a PLL the model holds. -/
def sourceHeld (k : ClockConfig) : Bool :=
  match k.source with
  | .pll id => decide (id.toNat < 8)
  | _ => true

/-- A micro-step of the calibration handshake. -/
def isCalStep : Micro → Bool
  | .calDivide _ _ _ => true
  | .calStart _ => true
  | .calPoll _ _ => true
  | .calStop _ _ => true
  | _ => false

/-- Every PLL a script item names as a source, enables or calibrates is one the model holds and, for a calibration step, is
enabled or in the list `on` of those that the script has enabled before. -/
def calStepReady (s : State) (on : List PllId) : Micro → Bool
  | .pllEnable id => decide (id.toNat < 8)
  | .calDivide id _ _ => decide (id.toNat < 8) && ((pllAt s id).enabled || on.contains id)
  | .calStart id => decide (id.toNat < 8) && ((pllAt s id).enabled || on.contains id)
  | .calPoll id _ => decide (id.toNat < 8) && ((pllAt s id).enabled || on.contains id)
  | .calStop id _ => decide (id.toNat < 8) && ((pllAt s id).enabled || on.contains id)
  | .setConfig t => sourceHeld t
  | .bringUp t _ => sourceHeld t
  | .apply t => sourceHeld t
  | .applyEnd t => sourceHeld t
  | _ => true

/-- A micro-step after which a PLL may be off, or that stands for a list of others: no calibration step of the present list
comes after it. -/
def endsCalibration : Micro → Bool
  | .dropPll _ => true
  | .pllDisable _ => true
  | .setConfig _ => true
  | .restoreSaved => true
  | .bringUp _ _ => true
  | _ => false

/-- Every calibration step of a script works on an enabled PLL (41_pll.md R103: precondition `pll[id].enabled`). -/
def calReady (s : State) : List PllId → List Micro → Prop
  | _, [] => True
  | on, m :: rest =>
    calStepReady s on m = true ∧ (endsCalibration m = true → rest.any isCalStep = false) ∧
      calReady s
        (match m with
          | .pllEnable id => id :: on
          | _ => on)
        rest

/-- 10_state.md R17, R18, R19; 40_clocktree.md R91: a disabled PLL is not configured; the poll budget is never above its
bound; `cur_pll_freq_mhz` is the configured frequency of the PLL last calibrated. -/
structure CalibrationInv (s : State) : Prop where
  chip : cfgOk s.cfg = true
  disabled : ∀ id : PllId, (pllAt s id).enabled = false → (pllAt s id).configuredFreqMhz = 0
  polls : ∀ id : PllId, (pllAt s id).calPollsLeft ≤ s.cfg.calTimeoutPolls
  current : (pllAt s s.lastCalPll).configuredFreqMhz = s.curPllFreqMhz
  curHeld : sourceHeld s.clk.cur = true
  savedHeld : sourceHeld s.slp.savedCfg = true
  ready : calReady s [] s.seq.script

/-! #### The bus limits (40_clocktree.md R89) -/

/-- What is known of a PLL: on, and the frequency it is configured to. -/
abbrev PllView := PllId → Bool × Word

/-- The PLLs as a state has them. -/
def pllsOf (s : State) : PllView := fun id => ((pllAt s id).enabled, (pllAt s id).configuredFreqMhz)

/-- One PLL of a view replaced. -/
def setView (view : PllView) (id : PllId) (x : Bool × Word) : PllView := fun j => if j = id then x else view j

/-- The source of a configuration runs at the configuration's source frequency. -/
def runsIn (view : PllView) (k : ClockConfig) : Prop := ∀ q, k.source = .pll q → view q = (true, k.sourceFreqMhz)

/-- What a script item needs of the applied configuration and of the PLLs where it is reached, so that no bus is driven from
a PLL that is off, being calibrated or at another frequency. The writes of an `apply` stand in `Applying`, not here. -/
def busItemOk (cfg : Cfg) (cur : ClockConfig) (view : PllView) : Micro → Prop
  | .setConfig t => validConfig cfg t = true
  | .bringUp t _ => validConfig cfg t = true ∧ (cur.source = t.source → runsIn view t)
  | .apply t => validConfig cfg t = true ∧ runsIn view t
  | .applyWrite _ _ => False
  | .applyEnd _ => False
  | .dropPll p => cur.source ≠ .pll p
  | .pllDisable id => cur.source ≠ .pll id
  | .calDivide id _ _ => cur.source ≠ .pll id
  | .pllEnable id => pllIdOk cfg id = true
  | .calStop id _ => pllIdOk cfg id = true ∧ cur.source ≠ .pll id
  | _ => True

/-- The applied configuration after a script item, `saved` being the one ENTER_SLEEP goes back to. -/
def curAfter (saved cur : ClockConfig) : Micro → ClockConfig
  | .setConfig t => t
  | .restoreSaved => saved
  | .apply t => t
  | _ => cur

/-- The view in which only the source of a configuration is known to run. -/
def onlySource (k : ClockConfig) : PllView := fun j => if k.source = .pll j then (true, k.sourceFreqMhz) else (false, 0)

/-- What is known of the PLLs after a script item. -/
def viewAfter (saved : ClockConfig) (view : PllView) : Micro → PllView
  | .setConfig t => onlySource t
  | .restoreSaved => onlySource saved
  | .bringUp t _ =>
    match t.source with
    | .pll q => setView view q (true, t.sourceFreqMhz)
    | _ => view
  | .dropPll p => setView view p (false, 0)
  | .pllEnable id => setView view id (true, (view id).2)
  | .pllDisable id => setView view id (false, 0)
  | .calDivide id _ _ => setView view id ((view id).1, 0)
  | .calStop id f => setView view id ((view id).1, f)
  | _ => view

/-- Every item of a script finds what it needs. -/
def busReady (cfg : Cfg) (saved : ClockConfig) : ClockConfig → PllView → List Micro → Prop
  | _, _, [] => True
  | cur, view, m :: rest =>
    busItemOk cfg cur view m ∧ busReady cfg saved (curAfter saved cur m) (viewAfter saved view m) rest

/-- The hardware fields are those after the first `n` writes of `apply(t)` from the applied configuration. -/
def HwAt (s : State) (t : ClockConfig) (n : Nat) : Prop :=
  s.clk.hw.mux =
      (if .muxSel ∈ (applyOrder s.cfg s.clk.cur t).take n then t.source else s.clk.cur.source) ∧
    s.clk.hw.cpuDiv = (replayPoint s.cfg s.clk.cur t n).cpuDiv ∧
    ∀ b ∈ chain s.cfg, busDiv s.clk.hw.busDiv b = busDiv (replayPoint s.cfg s.clk.cur t n).busDiv b

/-- Between two applies: the fields are the applied configuration's, and the script, unless HALT has ended it, finds what it
needs. -/
def Resting (s : State) : Prop :=
  Settled s ∧ (s.fault.halted = true ∨ busReady s.cfg s.slp.savedCfg s.clk.cur (pllsOf s) s.seq.script)

/-- Inside an `apply(t)` with `n` writes made: the rest of them is the script's head, unless HALT has stopped it there. -/
def Applying (s : State) : Prop :=
  ∃ t n, validConfig s.cfg t = true ∧ runsIn (pllsOf s) t ∧ HwAt s t n ∧
    (s.fault.halted = true ∨
      s.seq.busy = true ∧ ∃ rest,
        s.seq.script = ((applyOrder s.cfg s.clk.cur t).drop n).map (Micro.applyWrite t) ++ .applyEnd t :: rest ∧
          busReady s.cfg s.slp.savedCfg t (pllsOf s) rest)

/-- 40_clocktree.md R89, R90; 10_state.md R16: on a well-formed chip the applied and the saved configuration are valid, the PLL
the CPU runs from runs, and the hardware fields are at an instant of one `apply`. -/
structure BusInv (s : State) : Prop where
  chip : CfgWellFormed s.cfg
  curValid : validConfig s.cfg s.clk.cur = true
  savedValid : validConfig s.cfg s.slp.savedCfg = true
  curRuns : runsIn (pllsOf s) s.clk.cur
  position : Resting s ∨ Applying s

end Sys2Proof.Machine
end

