-- ==== Sys2Proof/Certificates/Slice0/Obligations.lean ====
section
/-! DEFINITION. The statements for the provers. Each docstring names the rules of spec/ it formalises; `c` is the issuing core
throughout, the one the arbiter picked. -/

open Sys2Proof Sys2Proof.Machine

/-! ### Encoding and decoding -/

/-- 30_encoding.md R60 to R62: the words of every op decode to that op, with every operand at every value, and no two command
words stand for one op with the same operands: a word that decodes is the one the encoder writes. -/
def Obligations.DecodeAndEncodeAgree : Prop :=
  (∀ i : Instr, decode (encode i).cmd (encode i).arg = .ok i) ∧
  ∀ (cmd : Word) (a : Regs5) (i : Instr), decode cmd a = .ok i → (encode i).cmd = cmd

/-- R68: a command word is illegal exactly when it matches no row of the opcode table (its opcode, or a reserved bit of its
format); the all-zero and the all-ones word are; an illegal word changes nothing but the issuer's `STATUS`, in HALT too. That
`PENDING` is clear afterwards is the model's deduction (log 7), and the note of the picked core is its own (log 5). -/
def Obligations.IllegalWordRefused : Prop :=
  (∀ (cmd : Word) (a : Regs5),
    (∃ e, decode cmd a = .error e) ↔ ∀ r ∈ opcodeTable, cmd &&& r.mask ≠ r.bits) ∧
  (∀ a : Regs5, (∃ e, decode 0 a = .error e) ∧ ∃ e, decode 0xFFFFFFFF a = .error e) ∧
  ∀ (s : State) (c : Core) (e : IllegalWord), c.val < s.cfg.nCores → (mboxAt s c).pending = true →
    decode (mboxAt s c).cmd (mboxAt s c).arg = .error e →
    ∃ t, act (.accept c) s = .next t ∧ RefusedWith c .illegalCmd (setEnv { s.env with picked := c } s) t

/-- R60 to R62 on written-out words: one word of each format. -/
def Obligations.SampleWordsDecode : Prop :=
  decode 0x02000000 #v[0, 0, 0, 0, 0] = .ok .getCpuFreq ∧
  decode 0x03000007 #v[0, 0, 0, 0, 0] = .ok (.pllAddConsumer 7) ∧
  decode 0x01000000 #v[160, 0, 0, 0, 0] = .ok (.setCpuFreq 160) ∧
  decode 0x11000000 #v[1, 480, 3, 160, 0] = .ok (.setConfig 1 480 3 160) ∧
  decode 0x21000002 #v[40, 480, 0, 0, 0] = .ok (.pllCfgCal 2 40 480) ∧
  decode 0x30000000 #v[0x12, 1, 5, 0, 0] = .ok (.buildParams 0x12 1 5) ∧
  decode 0x32000001 #v[4, 1, 0, 0, 0] = .ok (.enter true 4 1) ∧
  decode 0x05000000 #v[4, 1, 0x12, 1, 9] = .ok (.enterSleep false 4 1 0x12 1 9) ∧
  decode 0x06000004 #v[0, 0, 0, 0, 0] = .ok (.cfgPwrModeDefaults 4) ∧
  decode 0x06000008 #v[0, 0, 0, 0, 0] = .error (.reservedImm 6 8) ∧
  decode 0x35000000 #v[0, 0, 0, 0, 0] = .error (.unknownOpcode 0x35)

/-- 60_exceptions.md R171, 30_encoding.md R72: a step takes the agenda's head, or the free choice where the agenda is empty; the
acceptance of a core's pending legal command is `exec` of the decoded op. The agenda is the model's (log 2). -/
def Obligations.StepRunsTheDecodedOp : Prop :=
  (∀ (s : State) (a : Action) (rest : List Action), s.env.agenda = a :: rest →
    step s = act a (setEnv { s.env with agenda := rest } s)) ∧
  (∀ s : State, s.env.agenda = [] →
    step s = act (Config.arbiter s.env.choices) (setEnv { s.env with choices := s.env.choices + 1 } s)) ∧
  ∀ (s : State) (c : Core) (i : Instr), nextAction s = .accept c → c.val < s.cfg.nCores →
    (mboxAt s c).pending = true → decode (mboxAt s c).cmd (mboxAt s c).arg = .ok i →
    step s = exec i (setEnv { (choiceTaken s).env with picked := c } (choiceTaken s))

/-! ### Acceptance -/

/-- 30_encoding.md R72 (2), (4), 60_exceptions.md R156, R171: in HALT every legal command is turned away with `HALTED`, and
nothing but the issuer's `STATUS` changes; while an op runs a sequenced op is not picked: it stays pending, nothing changes.
That `PENDING` is clear after `HALTED` is the model's deduction (log 7), and that `exec` of an op that may not be picked answers
the same state is its choice (log 4). -/
def Obligations.HaltRefusesAndBusyWaits : Prop :=
  (∀ (i : Instr) (s : State), s.fault.halted = true →
    ∃ t, exec i s = .next t ∧ RefusedWith s.env.picked .halted s t) ∧
  ∀ (i : Instr) (s : State), isSequenced i = true → s.fault.halted = false → s.seq.busy = true → exec i s = .next s

/-- Every op answers in every state, and a step stops only at a host access outside the window (20_memory.md R40; log 12). -/
def Obligations.StepStopsOnlyOutsideTheWindow : Prop :=
  (∀ (i : Instr) (s : State), ∃ t, exec i s = .next t) ∧
  ∀ s : State, (∃ t, step s = .next t) ∨
    (step s = .fault .outsideWindow ∧
      ∃ (addr : Word) (bytes : Nat), 0x1000 ≤ windowOffset s.cfg addr ∧
        (nextAction s = .hostRead addr bytes ∨ ∃ v, nextAction s = .hostWrite addr bytes v))

/-- 30_encoding.md R72, 60_exceptions.md R155, 42_sleep.md R121, R133: a sequenced op accepted while none runs is turned away
with nothing changed, or runs, or (a REGDMA toggle with nothing to do) has ended; whichever it is, nothing has changed but
mailbox and sequencing, the discarded sleep parameters, and the saved configuration of ENTER_SLEEP. That such a toggle ends in
its acceptance micro-step is the model's choice (log 6). -/
def Obligations.SequencedAcceptanceFrame : Prop :=
  ∀ (i : Instr) (s : State), isSequenced i = true → Ready s →
    ∃ t, exec i s = .next t ∧
      ((∃ k, k ≠ StatusCode.ok ∧ RefusedWith s.env.picked k s t) ∨
        (Accepted s.env.picked s t ∧
          t = { s with
            mbox := t.mbox, seq := t.seq,
            slp := { s.slp with state := t.slp.state, programmed := t.slp.programmed, savedCfg := t.slp.savedCfg } } ∧
          (t.slp.state = s.slp.state ∧ t.slp.programmed = s.slp.programmed ∨
            s.slp.state = .paramsBuilt ∧ t.slp.state = .idle ∧ t.slp.programmed = false)) ∨
        ((i = .regdmaEn ∨ i = .regdmaDis) ∧ SameButSequencing s t ∧ Released s.env.picked t ∧
          OpEndedPlain s.env.picked .ok s t))

/-! ### ClockTree -/

/-- 40_clocktree.md R82, R83: on a well-formed chip `resolve` of a frequency gives a valid configuration of exactly that
frequency. -/
def Obligations.ResolveIsExact : Prop :=
  ∀ (cfg : Cfg) (f : Word) (k : ClockConfig), cfgOk cfg = true → resolve cfg f = some k →
    validConfig cfg k = true ∧ k.freqMhz = f ∧ f ≠ 0

/-- R82: under `exact` the crystal branch is taken exactly when the frequency divides the crystal's and the quotient is a legal
divider of 8 bits, and then the divider is that quotient. -/
def Obligations.ResolveCrystalExactly : Prop :=
  ∀ (cfg : Cfg) (f : Word), cfgOk cfg = true → cfg.divRound = .exact →
    ((resolveCrystal cfg f).isSome = true ↔
      1 ≤ f.toNat ∧ f.toNat ∣ cfg.xtalFreqMhz.toNat ∧ cfg.xtalFreqMhz.toNat / f.toNat ≤ 255 ∧
        cfg.legalXtalDivs.contains (cfg.xtalFreqMhz.toNat / f.toNat) = true) ∧
    ∀ k, resolveCrystal cfg f = some k →
      k.source = .crystal ∧ k.sourceFreqMhz = cfg.xtalFreqMhz ∧ k.freqMhz = f ∧
        k.divider.int.toNat * f.toNat = cfg.xtalFreqMhz.toNat ∧ k.divider.num = 0 ∧ k.divider.den = 0

/-- R82: RESOLVE ends with the configuration in `RES0..RES3`, or is turned away with `RES` unchanged; the crystal first, then
the first table entry of that frequency. 30_encoding.md R63 to R65: the bits of a ClockSource code and of a packed Fraction, and
four words are a valid configuration exactly when they are the code, the source frequency, the packed divider and the frequency
of one. -/
def Obligations.ResolveRuns : Prop :=
  (∀ (f : Word) (s : State), s.fault.halted = false →
    (∀ k, (resolveCrystal s.cfg f = some k ∨
        f ≠ 0 ∧ resolveCrystal s.cfg f = none ∧ s.cfg.pllTable.find? (fun e => decide (e.freqMhz = f)) = some k) →
      ∃ t r4, exec (.resolve f) s = .next t ∧ SameButMailboxes s t ∧ OpEnded s.env.picked .ok s t ∧
        (mboxAt s s.env.picked).res.toList.getLast? = some r4 ∧
        resList t s.env.picked = [sourceCode k.source, k.sourceFreqMhz, packFraction k.divider, k.freqMhz, r4]) ∧
    (f = 0 ∨ resolveCrystal s.cfg f = none ∧ (∀ e ∈ s.cfg.pllTable, e.freqMhz ≠ f) →
      ∃ t, exec (.resolve f) s = .next t ∧ RefusedWith s.env.picked .unsupportedFrequency s t)) ∧
  (∀ src : ClockSource,
    (sourceCode src).extractLsb' 0 2 = (match src with | .crystal => 0 | .pll _ => 1 | .fastRc => 2) ∧
    (sourceCode src).extractLsb' 2 6 = 0 ∧
    (sourceCode src).extractLsb' 8 8 = (match src with | .pll id => id | _ => 0) ∧
    (sourceCode src).extractLsb' 16 16 = 0) ∧
  (∀ q : Fraction,
    (packFraction q).extractLsb' 0 8 = q.int ∧ (packFraction q).extractLsb' 8 8 = q.num ∧
    (packFraction q).extractLsb' 16 8 = q.den ∧ (packFraction q).extractLsb' 24 8 = 0) ∧
  ∀ (cfg : Cfg) (r0 r1 r2 r3 : Word) (k : ClockConfig),
    decodeValidConfig cfg r0 r1 r2 r3 = some k ↔
      validConfig cfg k = true ∧
        [r0, r1, r2, r3] = [sourceCode k.source, k.sourceFreqMhz, packFraction k.divider, k.freqMhz]

/-- R95: GET_CPU_FREQ is opcode 0x02 of format N, immediate: in one micro-step, whether a switch runs or not, `RES0..RES3`
hold the configuration last fully applied and nothing but the issuer's mailbox is written. -/
def Obligations.GetCpuFreqReturnsCur : Prop :=
  (∀ a : Regs5, decode 0x02000000 a = .ok .getCpuFreq) ∧ isSequenced .getCpuFreq = false ∧
  ∀ s : State, s.fault.halted = false →
    ∃ t r4, exec .getCpuFreq s = .next t ∧ SameButMailboxes s t ∧ OpEnded s.env.picked .ok s t ∧
      (mboxAt s s.env.picked).res.toList.getLast? = some r4 ∧
      resList t s.env.picked =
        [sourceCode s.clk.cur.source, s.clk.cur.sourceFreqMhz, packFraction s.clk.cur.divider, s.clk.cur.freqMhz, r4]

/-- R90, R91, R92, R94: SET_CONFIG and SET_CPU_FREQ, accepted while no op runs, take the five steps in order and end `OK` with
the target applied: with every poll answered 1, the events, the clock fields, every PLL, the tick, the counter and the current
PLL frequency, which only a calibration or the disable of the PLL it refers to changes (R103, R106). -/
def Obligations.ClockSwitchRuns : Prop :=
  ∀ (i : Instr) (s : State) (k : ClockConfig), cfgOk s.cfg = true → Ready s → clockTarget s.cfg i = some k →
    validConfig s.cfg k = true →
    ∃ t, exec i s = .next t ∧ Accepted s.env.picked s t ∧ ∃ n u, u = runSequencer (List.replicate n true) t ∧
      u = { s with
        mbox := u.mbox, seq := u.seq, clk := u.clk, plls := u.plls, curPllFreqMhz := u.curPllFreqMhz,
        lastCalPll := u.lastCalPll, slp := (discardParams s).slp, trace := s.trace ++ switchEvents s k } ∧
      Released s.env.picked u ∧ OpEndedPlain s.env.picked .ok s u ∧
      u.clk.cur = k ∧ u.clk.state = stateOf k.source ∧ u.clk.hw.mux = k.source ∧ u.clk.hw.cpuDiv = k.divider ∧
      (∀ b ∈ chain s.cfg, busDiv u.clk.hw.busDiv b = busDiv (busDivs s.cfg k) b) ∧
      u.clk.ticksPerUs = k.freqMhz ∧ u.clk.cycleCounter = rescale s.clk.cycleCounter s.clk.cur.freqMhz k.freqMhz ∧
      (∀ q, k.source = .pll q →
        pllAt u q = (if needsReconf s k = true then
          { pllAt s q with
            enabled := true, configuredFreqMhz := k.sourceFreqMhz, calState := .calIdle,
            calPollsLeft := s.cfg.calTimeoutPolls - 1 }
          else { pllAt s q with enabled := true, configuredFreqMhz := k.sourceFreqMhz }) ∧
        (needsReconf s k = true → u.curPllFreqMhz = k.sourceFreqMhz ∧ u.lastCalPll = q)) ∧
      (needsReconf s k = false →
        u.lastCalPll = s.lastCalPll ∧
        u.curPllFreqMhz =
          if leftPll s.clk.cur k = some s.lastCalPll ∧ (pllAt s s.lastCalPll).consumerCount = 0 then 0
          else s.curPllFreqMhz) ∧
      (∀ p, s.clk.cur.source = .pll p → k.source ≠ .pll p →
        pllAt u p = if (pllAt s p).consumerCount = 0 then
          { pllAt s p with enabled := false, configuredFreqMhz := 0, calState := .calIdle } else pllAt s p) ∧
      (∀ j, s.clk.cur.source ≠ .pll j → k.source ≠ .pll j → pllAt u j = pllAt s j)

/-- R90 check (1), R94: an invalid target and an unsupported frequency are turned away with nothing changed. -/
def Obligations.ClockRequestsRefused : Prop :=
  (∀ (src sf d f : Word) (s : State), Ready s → decodeValidConfig s.cfg src sf d f = none →
    ∃ t, exec (.setConfig src sf d f) s = .next t ∧ RefusedWith s.env.picked .invalidConfig s t) ∧
  ∀ (f : Word) (s : State), Ready s → resolve s.cfg f = none →
    ∃ t, exec (.setCpuFreq f) s = .next t ∧ RefusedWith s.env.picked .unsupportedFrequency s t

/-- R91: where the target PLL is enabled and runs at the target's source frequency, the whole switch emits no event of that
PLL, whatever the environment answers; for the PLL last calibrated, `cur_pll_freq_mhz` gives the same answer in every state
that keeps the calibration invariant; and PLL_CFG_CAL performs the handshake even so. -/
def Obligations.FastPathSkipsTheHandshake : Prop :=
  (∀ (i : Instr) (s t : State) (k : ClockConfig) (q : PllId) (answers : List Bool), Ready s →
    clockTarget s.cfg i = some k → k.source = .pll q → (pllAt s q).enabled = true →
    (pllAt s q).configuredFreqMhz = k.sourceFreqMhz → exec i s = .next t →
    ∃ l, (runSequencer answers t).trace = s.trace ++ l ∧
      ∀ e ∈ l, (∀ v, e ≠ .w (.pllPwr q) v) ∧ (∀ v, e ≠ .w (.pllDiv q) v) ∧ (∀ v, e ≠ .b (.calStart q) v) ∧
        (∀ v, e ≠ .r (.calDone q) v) ∧ ∀ v, e ≠ .b (.calStop q) v) ∧
  (∀ (s : State) (k : ClockConfig) (q : PllId), CalibrationInv s → s.lastCalPll = q →
    ((pllAt s q).configuredFreqMhz = k.sourceFreqMhz ↔ s.curPllFreqMhz = k.sourceFreqMhz)) ∧
  ∀ (id : PllId) (x g : Word) (s : State), Ready s → pllIdOk s.cfg id = true → 1 ≤ x.toNat → 1 ≤ g.toNat →
    (pllAt s id).enabled = true → s.clk.cur.source = .crystal → (pllAt s id).configuredFreqMhz = g →
    ∃ t, exec (.pllCfgCal id x g) s = .next t ∧ ∀ a b z,
      (runSequencer [a, b, true, z] t).trace =
        s.trace ++ [.w (.pllDiv id) (Config.pllDivWords id x g), .b (.calStart id) 1, .r (.calDone id) 1,
          .b (.calStop id) 1]

/-- R87, R88: `apply` writes every present divider and the select, each exactly once; a move up (to a higher frequency, or to the
same frequency from a faster source) goes from the outermost bus to the CPU, a move down the other way; the select comes first when the new source is slower, and last otherwise. The values written are
the ClockSource code, the packed CPU divider and the bus dividers of the target. -/
def Obligations.ApplyWritesEveryDividerOnce : Prop :=
  ∀ (cfg : Cfg) (cur k : ClockConfig),
    (applyOrder cfg cur k).Perm (.muxSel :: (chain cfg).map .div) ∧ (applyOrder cfg cur k).Nodup ∧
    ((applyOrder cfg cur k).head? = some .muxSel ↔ k.sourceFreqMhz.toNat < cur.sourceFreqMhz.toNat) ∧
    ((applyOrder cfg cur k).getLast? = some .muxSel ↔ cur.sourceFreqMhz.toNat ≤ k.sourceFreqMhz.toNat) ∧
    (applyOrder cfg cur k).filter (fun f => decide (f ≠ .muxSel)) =
      (if cur.freqMhz.toNat < k.freqMhz.toNat ∨
          cur.freqMhz = k.freqMhz ∧ cur.sourceFreqMhz.toNat < k.sourceFreqMhz.toNat
        then (chain cfg).reverse else chain cfg).map .div ∧
    applyValue cfg k .muxSel = sourceCode k.source ∧ applyValue cfg k (.div .cpu) = packFraction k.divider ∧
    ∀ b, b ≠ .cpu → applyValue cfg k (.div b) = busDiv (busDivs cfg k) b

/-- R96: `cur` and `clk_state` change only in the last micro-step of an `apply`, together, or by RESET. -/
def Obligations.ClockStateChangesOnlyAtApplyEnd : Prop :=
  ∀ s t : State, step s = .next t → (t.clk.cur ≠ s.clk.cur ∨ t.clk.state ≠ s.clk.state) →
    nextAction s = .reset ∨
    ∃ answer k rest, nextAction s = .sequencer answer ∧ resolveHead 4 s s.seq.script = .applyEnd k :: rest ∧
      t.clk.cur = k ∧ t.clk.state = stateOf k.source

/-- R96: there is no direct change between two different non-crystal sources in the run of a clock op: of the sources applied
before and after any micro-step, one is the crystal or they are the same. -/
def Obligations.SwitchPassesThroughCrystal : Prop :=
  ∀ (i : Instr) (s t : State) (k : ClockConfig) (answers : List Bool) (a : Bool), Ready s →
    clockTarget s.cfg i = some k → exec i s = .next t →
    (sequencerStep a (runSequencer answers t)).clk.cur.source = (runSequencer answers t).clk.cur.source ∨
      (sequencerStep a (runSequencer answers t)).clk.cur.source = .crystal ∨
      (runSequencer answers t).clk.cur.source = .crystal

/-- R92: step 5 sets the tick, scales the counter exactly, rounds down and reduces modulo 2^32; the same frequency leaves the
counter, a lower one never makes it larger, and it changes nothing else. -/
def Obligations.StepFiveRescales : Prop :=
  ∀ (old new : Word) (s : State), 1 ≤ old.toNat →
    (doStepFive old new s).clk.ticksPerUs = new ∧
    (doStepFive old new s).clk.cycleCounter.toNat = s.clk.cycleCounter.toNat * new.toNat / old.toNat % 2 ^ 32 ∧
    (old = new → (doStepFive old new s).clk.cycleCounter = s.clk.cycleCounter) ∧
    (new.toNat ≤ old.toNat → (doStepFive old new s).clk.cycleCounter.toNat ≤ s.clk.cycleCounter.toNat) ∧
    doStepFive old new s =
      { s with clk := { s.clk with ticksPerUs := new, cycleCounter := (doStepFive old new s).clk.cycleCounter } }

/-- 70_reset_and_hazards.md R195: two rescales, there and back, with no intermediate value of 2^32 or more, never end above the
start and at most `ceil(f1 / f2)` below it. -/
def Obligations.RescaleRoundTrip : Prop :=
  ∀ c f1 f2 : Word, 1 ≤ f1.toNat → 1 ≤ f2.toNat → c.toNat * f2.toNat / f1.toNat < 2 ^ 32 →
    (rescale (rescale c f1 f2) f2 f1).toNat ≤ c.toNat ∧
    c.toNat ≤ (rescale (rescale c f1 f2) f2 f1).toNat + ceilDiv f1.toNat f2.toNat

/-- 40_clocktree.md R98: the two sufficient conditions for the ordering invariant over one `apply`, (U) and (D), at every
intermediate instant. -/
def Obligations.MonotoneMovesAreSafe : Prop :=
  ∀ (cfg : Cfg) (cur k : ClockConfig), fractionOk cfg cur.divider = true → fractionOk cfg k.divider = true →
    (∀ b ∈ chain cfg, 1 ≤ (busDiv (busDivs cfg cur) b).toNat ∧ 1 ≤ (busDiv (busDivs cfg k) b).toNat) →
    withinLimits cfg (settledFreqs cfg cur) = true → withinLimits cfg (settledFreqs cfg k) = true →
    ((goesUp cur k = true ∧ muxFirst cur k = false ∧
        freqsAtMost 1 (settledFreqs cfg cur) (settledFreqs cfg k)) ∨
      (goesUp cur k = false ∧ (muxFirst cur k = true ∨ cur.sourceFreqMhz = k.sourceFreqMhz) ∧
        freqsAtMost 1 (settledFreqs cfg k) (settledFreqs cfg cur))) →
    ∀ n, withinLimits cfg (pointFreqs cfg (replayPoint cfg cur k n)) = true

/-- R89: on a well-formed chip every step, whatever action it takes, keeps the invariant `BusInv`: the applied and the saved
configuration are valid, the PLL the CPU runs from is on at its frequency, and the hardware fields are at an instant of one
`apply` whose remaining writes head the script. Under it no bus exceeds its maximum, and a PLL the CPU runs from is enabled and
configured; so this holds after any sequence of actions from RESET. -/
def Obligations.NoBusEverExceedsItsMaximum : Prop :=
  (∀ s t : State, BusInv s → step s = .next t → BusInv t) ∧
  (∀ s : State, BusInv s →
    withinLimits s.cfg (busFreqs s) = true ∧
    ∀ id, s.clk.hw.mux = .pll id → (pllAt s id).enabled = true ∧ (pllAt s id).configuredFreqMhz ≠ 0) ∧
  ∀ (cfg : Cfg) (actions : List Action) (t : State), CfgWellFormed cfg →
    runActions actions (State.resetOf cfg) = .next t →
    withinLimits cfg (busFreqs t) = true ∧
    ∀ id, t.clk.hw.mux = .pll id → (pllAt t id).enabled = true ∧ (pllAt t id).configuredFreqMhz ≠ 0

/-- R89, R90: from any settled state on a well-formed chip, at every micro-step boundary of the run of a clock op, whatever the
polls answer, no bus exceeds its maximum. -/
def Obligations.ClockSwitchKeepsBusLimits : Prop :=
  ∀ (i : Instr) (s t : State) (k : ClockConfig) (answers : List Bool), CfgWellFormed s.cfg → Ready s → Settled s →
    validConfig s.cfg s.clk.cur = true → clockTarget s.cfg i = some k → validConfig s.cfg k = true →
    exec i s = .next t →
    withinLimits s.cfg (busFreqs (runSequencer answers t)) = true

/-- R93, 60_exceptions.md R156, R157 (b): a calibration that times out inside a clock op leaves the CPU on the crystal, the tick
and the counter of the configuration really applied, the PLL enabled and not configured, and the block in HALT; the hardware
fields, the other PLLs, the current PLL frequency and the whole trace are those of the steps that were taken. -/
def Obligations.ClockSwitchTimesOut : Prop :=
  ∀ (i : Instr) (s : State) (k : ClockConfig) (q : PllId), cfgOk s.cfg = true → Ready s →
    clockTarget s.cfg i = some k → validConfig s.cfg k = true → k.source = .pll q → needsReconf s k = true →
    ∃ t, exec i s = .next t ∧ Accepted s.env.picked s t ∧ ∃ n u, u = runSequencer (List.replicate n false) t ∧
      u.fault = { halted := true, code := 0x02, info := pllFaultInfo q 0 } ∧
      Released s.env.picked u ∧ OpEndedPlain s.env.picked .calibrationTimeout s u ∧
      u.clk.cur = applyBase s k ∧ u.clk.state = (if goesThroughCrystal s k then .onCrystal else s.clk.state) ∧
      u.clk.ticksPerUs = (applyBase s k).freqMhz ∧
      u.clk.cycleCounter = rescale s.clk.cycleCounter s.clk.cur.freqMhz (applyBase s k).freqMhz ∧
      pllAt u q = { pllAt s q with
        enabled := true, configuredFreqMhz := 0, calState := .calFailed, calPollsLeft := 0 } ∧
      u.clk.cur.source = .crystal ∧
      (if goesThroughCrystal s k then
        u.clk.hw.mux = .crystal ∧ u.clk.hw.cpuDiv = { int := 1, num := 0, den := 0 } ∧
          ∀ b ∈ chain s.cfg, busDiv u.clk.hw.busDiv b = busDiv (busDivs s.cfg (xtalNative s.cfg)) b
      else u.clk.hw = s.clk.hw) ∧
      (∀ p, s.clk.cur.source = .pll p → k.source ≠ .pll p →
        pllAt u p = if (pllAt s p).consumerCount = 0 then
          { pllAt s p with enabled := false, configuredFreqMhz := 0, calState := .calIdle } else pllAt s p) ∧
      (∀ j, s.clk.cur.source ≠ .pll j → k.source ≠ .pll j → pllAt u j = pllAt s j) ∧
      u.lastCalPll = s.lastCalPll ∧
      u.curPllFreqMhz =
        (if s.lastCalPll = q ∨ leftPll s.clk.cur k = some s.lastCalPll ∧ (pllAt s s.lastCalPll).consumerCount = 0 then 0
        else s.curPllFreqMhz) ∧
      u.trace = s.trace ++ leaveEvents s k ++ timedOutCalibration s.cfg q (pllAt s q).enabled k.sourceFreqMhz ∧
      u.cfg = s.cfg ∧ u.slp = (discardParams s).slp ∧ u.env = s.env

/-! ### The PLL controllers -/

/-- 41_pll.md R101, R102: PLL_ENABLE is opcode 0x20 of format I, sequenced: it is turned away for a PLL the chip does not have;
else one event, sent again on a PLL that is on already, and the enable flag, and nothing else; then `OK`. That the op ends with
that micro-step is the model's deduction (log 6). -/
def Obligations.PllEnableRuns : Prop :=
  (∀ (id : PllId) (a : Regs5), decode (commandWord 0x20 (immId id)) a = .ok (.pllEnable id)) ∧
  (∀ id, isSequenced (.pllEnable id) = true) ∧
  ∀ (id : PllId) (s : State), cfgOk s.cfg = true → Ready s →
    (s.cfg.nPll ≤ id.toNat → ∃ t, exec (.pllEnable id) s = .next t ∧ RefusedWith s.env.picked .badPllId s t) ∧
    (id.toNat < s.cfg.nPll →
      ∃ t, exec (.pllEnable id) s = .next t ∧ Accepted s.env.picked s t ∧ ∀ answer u, u = sequencerStep answer t →
        u = { s with mbox := u.mbox, seq := u.seq, plls := u.plls, trace := s.trace ++ [.w (.pllPwr id) 1] } ∧
        pllAt u id = { pllAt s id with enabled := true } ∧ OtherPllsSame id s u ∧
        Released s.env.picked u ∧ OpEndedPlain s.env.picked .ok s u)

/-- R103, R104: PLL_CFG_CAL with a done flag on any allowed poll, the last included: the events of the handshake in order, the
PLL configured, the current PLL frequency recorded, and `OK`. That the op ends in the micro-step of the calibration stop is the
model's deduction (log 6). -/
def Obligations.PllCfgCalSucceeds : Prop :=
  ∀ (id : PllId) (x g : Word) (s : State) (k : Nat) (a b z : Bool), cfgOk s.cfg = true → Ready s →
    pllIdOk s.cfg id = true → 1 ≤ x.toNat → 1 ≤ g.toNat → (pllAt s id).enabled = true → s.clk.cur.source = .crystal →
    k < s.cfg.calTimeoutPolls →
    ∃ t, exec (.pllCfgCal id x g) s = .next t ∧ Accepted s.env.picked s t ∧
      ∀ u, u = runSequencer ([a, b] ++ List.replicate k false ++ [true, z]) t →
        u = { s with
          mbox := u.mbox, seq := u.seq, plls := u.plls, curPllFreqMhz := g, lastCalPll := id,
          trace := s.trace ++ [.w (.pllDiv id) (Config.pllDivWords id x g), .b (.calStart id) 1] ++
            List.replicate k (.r (.calDone id) 0) ++ [.r (.calDone id) 1, .b (.calStop id) 1] } ∧
        pllAt u id = { pllAt s id with
          configuredFreqMhz := g, calState := .calIdle, calPollsLeft := s.cfg.calTimeoutPolls - k - 1 } ∧
        OtherPllsSame id s u ∧ Released s.env.picked u ∧ OpEndedPlain s.env.picked .ok s u

/-- R103, R104, 60_exceptions.md R156, R157 (a): exactly `CAL_TIMEOUT_POLLS` polls that all answer 0 are a timeout: no stop, the
PLL stays enabled and is not configured, and the block halts with the PLL's number. That the fault comes in the micro-step of the
last poll is the model's deduction (log 6). -/
def Obligations.PllCfgCalTimesOut : Prop :=
  ∀ (id : PllId) (x g : Word) (s : State) (a b : Bool), cfgOk s.cfg = true → Ready s →
    pllIdOk s.cfg id = true → 1 ≤ x.toNat → 1 ≤ g.toNat → (pllAt s id).enabled = true → s.clk.cur.source = .crystal →
    ∃ t, exec (.pllCfgCal id x g) s = .next t ∧
      ∀ u, u = runSequencer ([a, b] ++ List.replicate s.cfg.calTimeoutPolls false) t →
        u = { s with
          mbox := u.mbox, seq := u.seq, plls := u.plls,
          curPllFreqMhz := if s.lastCalPll = id then 0 else s.curPllFreqMhz,
          fault := { halted := true, code := 0x02, info := pllFaultInfo id 0 },
          trace := s.trace ++ [.w (.pllDiv id) (Config.pllDivWords id x g), .b (.calStart id) 1] ++
            List.replicate s.cfg.calTimeoutPolls (.r (.calDone id) 0) } ∧
        pllAt u id = { pllAt s id with configuredFreqMhz := 0, calState := .calFailed, calPollsLeft := 0 } ∧
        OtherPllsSame id s u ∧ Released s.env.picked u ∧ OpEndedPlain s.env.picked .calibrationTimeout s u

/-- R104: the four checks of PLL_CFG_CAL, each deciding only where the ones before it pass. -/
def Obligations.PllCfgCalRefusals : Prop :=
  ∀ (id : PllId) (x g : Word) (s : State), Ready s →
    ∃ t, exec (.pllCfgCal id x g) s = .next t ∧
      (s.cfg.nPll ≤ id.toNat → RefusedWith s.env.picked .badPllId s t) ∧
      (id.toNat < s.cfg.nPll → (x = 0 ∨ g = 0) → RefusedWith s.env.picked .invalidConfig s t) ∧
      (id.toNat < s.cfg.nPll → x ≠ 0 → g ≠ 0 → (pllAt s id).enabled = false →
        RefusedWith s.env.picked .pllNotEnabled s t) ∧
      (id.toNat < s.cfg.nPll → x ≠ 0 → g ≠ 0 → (pllAt s id).enabled = true → s.clk.cur.source ≠ .crystal →
        RefusedWith s.env.picked .notOnCrystal s t)

/-- R106, R107: PLL_DISABLE is opcode 0x22 of format I, sequenced: turned away for a PLL the chip does not have or the CPU runs
from; else, in one micro-step, the fatal fault with sub-code 1 and nothing else changed while consumers hold it, or the
disable, sent again on a PLL that is off already. -/
def Obligations.PllDisableRuns : Prop :=
  (∀ (id : PllId) (a : Regs5), decode (commandWord 0x22 (immId id)) a = .ok (.pllDisable id)) ∧
  (∀ id, isSequenced (.pllDisable id) = true) ∧
  ∀ (id : PllId) (s : State), cfgOk s.cfg = true → Ready s →
    (s.cfg.nPll ≤ id.toNat → ∃ t, exec (.pllDisable id) s = .next t ∧ RefusedWith s.env.picked .badPllId s t) ∧
    (id.toNat < s.cfg.nPll → s.clk.cur.source = .pll id →
      ∃ t, exec (.pllDisable id) s = .next t ∧ RefusedWith s.env.picked .pllInUse s t) ∧
    (id.toNat < s.cfg.nPll → s.clk.cur.source ≠ .pll id →
      ∃ t, exec (.pllDisable id) s = .next t ∧ Accepted s.env.picked s t ∧ ∀ answer u, u = sequencerStep answer t →
        Released s.env.picked u ∧
        ((pllAt s id).consumerCount ≠ 0 →
          u = { s with
            mbox := u.mbox, seq := u.seq, fault := { halted := true, code := 0x03, info := pllFaultInfo id 1 } } ∧
          OpEndedPlain s.env.picked .consumerAccountingViolation s u) ∧
        ((pllAt s id).consumerCount = 0 →
          u = { s with
            mbox := u.mbox, seq := u.seq, plls := u.plls,
            curPllFreqMhz := if s.lastCalPll = id then 0 else s.curPllFreqMhz,
            trace := s.trace ++ [.w (.pllPwr id) 0] } ∧
          pllAt u id = { pllAt s id with enabled := false, configuredFreqMhz := 0, calState := .calIdle } ∧
          OtherPllsSame id s u ∧ OpEndedPlain s.env.picked .ok s u))

/-- R109: PLL_ADD_CONSUMER is opcode 0x03 of format I, immediate: turned away for a PLL the chip does not have or at the largest
count; else the count goes up by one and nothing else changes; the count never wraps. -/
def Obligations.PllAddConsumerRuns : Prop :=
  (∀ (id : PllId) (a : Regs5), decode (commandWord 0x03 (immId id)) a = .ok (.pllAddConsumer id)) ∧
  (∀ id, isSequenced (.pllAddConsumer id) = false) ∧
  ∀ (id : PllId) (s : State), cfgOk s.cfg = true → s.fault.halted = false →
    ∃ t, exec (.pllAddConsumer id) s = .next t ∧
      (s.cfg.nPll ≤ id.toNat → RefusedWith s.env.picked .badPllId s t) ∧
      (id.toNat < s.cfg.nPll → (pllAt s id).consumerCount.toNat = 2 ^ 32 - 1 →
        RefusedWith s.env.picked .consumerOverflow s t) ∧
      (id.toNat < s.cfg.nPll → (pllAt s id).consumerCount.toNat < 2 ^ 32 - 1 →
        t = { s with mbox := t.mbox, plls := t.plls } ∧
        pllAt t id = { pllAt s id with consumerCount := (pllAt s id).consumerCount + 1 } ∧
        (pllAt t id).consumerCount.toNat = (pllAt s id).consumerCount.toNat + 1 ∧
        OtherPllsSame id s t ∧ OpEndedPlain s.env.picked .ok s t)

/-- R110, 60_exceptions.md R156: PLL_REMOVE_CONSUMER is opcode 0x04 of format I, immediate: turned away for a PLL the chip does
not have; the fatal fault with sub-code 2 at count zero, which, where no other core's op runs, changes nothing but the fault
record and the issuer's `STATUS` (R157 (d)); else the count goes down by one and nothing else changes. -/
def Obligations.PllRemoveConsumerRuns : Prop :=
  (∀ (id : PllId) (a : Regs5), decode (commandWord 0x04 (immId id)) a = .ok (.pllRemoveConsumer id)) ∧
  (∀ id, isSequenced (.pllRemoveConsumer id) = false) ∧
  ∀ (id : PllId) (s : State), cfgOk s.cfg = true → s.fault.halted = false →
    ∃ t, exec (.pllRemoveConsumer id) s = .next t ∧
      (s.cfg.nPll ≤ id.toNat → RefusedWith s.env.picked .badPllId s t) ∧
      (id.toNat < s.cfg.nPll → (pllAt s id).consumerCount = 0 →
        t = { s with
          mbox := t.mbox, seq := t.seq, fault := { halted := true, code := 0x03, info := pllFaultInfo id 2 } } ∧
        EndedWith .consumerAccountingViolation (mboxAt s s.env.picked) (mboxAt t s.env.picked) ∧
        (mboxAt t s.env.picked).res = (mboxAt s s.env.picked).res ∧
        (∀ d, d ≠ s.env.picked → ¬(s.seq.busy = true ∧ s.seq.owner = d) → mboxAt t d = mboxAt s d) ∧
        ((s.seq.busy = false ∨ s.seq.owner = s.env.picked) →
          t.seq = s.seq ∧ OpEndedPlain s.env.picked .consumerAccountingViolation s t)) ∧
      (id.toNat < s.cfg.nPll → (pllAt s id).consumerCount ≠ 0 →
        t = { s with mbox := t.mbox, plls := t.plls } ∧
        pllAt t id = { pllAt s id with consumerCount := (pllAt s id).consumerCount - 1 } ∧
        (pllAt t id).consumerCount.toNat + 1 = (pllAt s id).consumerCount.toNat ∧
        OtherPllsSame id s t ∧ OpEndedPlain s.env.picked .ok s t)

/-- 60_exceptions.md R156 step 4, R157 (d): a remove at count zero while another core's op runs abandons that op with `HALTED`
where it is; clock tree, PLLs, sleep state and trace stay as they are. -/
def Obligations.FatalFaultAbandonsTheRunningOp : Prop :=
  ∀ (id : PllId) (s : State), s.fault.halted = false → pllIdOk s.cfg id = true → (pllAt s id).consumerCount = 0 →
    s.seq.busy = true → s.seq.owner ≠ s.env.picked →
    ∃ t, exec (.pllRemoveConsumer id) s = .next t ∧ t.fault.halted = true ∧ t.seq.busy = false ∧ t.seq.script = [] ∧
      EndedWith .halted (mboxAt s s.seq.owner) (mboxAt t s.seq.owner) ∧
      (mboxAt t s.seq.owner).res = (mboxAt s s.seq.owner).res ∧
      EndedWith .consumerAccountingViolation (mboxAt s s.env.picked) (mboxAt t s.env.picked) ∧
      (∀ d, d ≠ s.env.picked → d ≠ s.seq.owner → mboxAt t d = mboxAt s d) ∧
      t.clk = s.clk ∧ t.plls = s.plls ∧ t.slp = s.slp ∧ t.trace = s.trace

/-- R108, R111: a consumer count changes only by an accepted add (one up, never from the largest) or remove (one down, never
from zero) of that PLL, or by RESET; no CPU-clock op touches it. -/
def Obligations.OnlyConsumerOpsChangeTheCount : Prop :=
  ∀ (s t : State) (id : PllId), step s = .next t → (pllAt t id).consumerCount ≠ (pllAt s id).consumerCount →
    nextAction s = .reset ∨
    ∃ c, nextAction s = .accept c ∧
      ((decode (mboxAt s c).cmd (mboxAt s c).arg = .ok (.pllAddConsumer id) ∧
          (pllAt t id).consumerCount.toNat = (pllAt s id).consumerCount.toNat + 1) ∨
        (decode (mboxAt s c).cmd (mboxAt s c).arg = .ok (.pllRemoveConsumer id) ∧
          (pllAt t id).consumerCount.toNat + 1 = (pllAt s id).consumerCount.toNat))

/-! ### SleepSequencer -/

/-- 42_sleep.md R124: microseconds to cycles is to the nearest, ties up; in the HP domain it is the exact product. -/
def Obligations.CyclesRoundToNearest : Prop :=
  (∀ us hz : Nat, 2 * 1000000 * cycles us hz ≤ 2 * (us * hz) + 1000000 ∧
    2 * (us * hz) + 1000000 < 2 * 1000000 * (cycles us hz + 1)) ∧
  (∀ us mhz : Nat, cyclesHp us mhz = us * mhz) ∧
  ∀ (cfg : Cfg) (lpHz hpMhz mf pd adj : Word),
    (wideBudget cfg lpHz hpMhz mf pd adj).lpWait = cycles (lpWaitUs cfg lpHz.toNat mf pd) lpHz.toNat ∧
    (wideBudget cfg lpHz hpMhz mf pd adj).hpWait = hpWaitUs cfg pd * hpMhz.toNat

/-- 42_sleep.md R137: powering the crystal down never shortens the HP wait, nor the LP wait where the crystal's constant is the
larger one, in microseconds and in cycles, for all other inputs equal. -/
def Obligations.BudgetIsMonotoneInPdXtal : Prop :=
  ∀ (cfg : Cfg) (lpHz hpMhz mf pd pd' adj : Word), pdXtal pd = true → pdXtal pd' = false →
    hpWaitUs cfg pd' ≤ hpWaitUs cfg pd ∧
    (wideBudget cfg lpHz hpMhz mf pd' adj).hpWait ≤ (wideBudget cfg lpHz hpMhz mf pd adj).hpWait ∧
    (usOfLp lpHz.toNat cfg.lp.clkPowerOnWaitCycles.toNat ≤ cfg.lp.xtalStableWaitUs.toNat →
      lpWaitUs cfg lpHz.toNat mf pd' ≤ lpWaitUs cfg lpHz.toNat mf pd ∧
      (wideBudget cfg lpHz hpMhz mf pd' adj).lpWait ≤ (wideBudget cfg lpHz hpMhz mf pd adj).lpWait)

/-- R122 to R127: BUILD_PARAMS, its checks passed, takes the mode words of the working table and the exact budget of the current
clock configuration in one micro-step, without an event, and ends `OK` with three words of it in `RES`. -/
def Obligations.BuildParamsRuns : Prop :=
  ∀ (mf pd adj : Word) (s : State), Ready s → modeFlagsOk s.cfg mf = true → 1 ≤ s.slp.lpClkFreqHz.toNat →
    budgetFits (wideBudget s.cfg s.slp.lpClkFreqHz s.clk.cur.freqMhz mf pd adj) = true →
    ∃ t, exec (.buildParams mf pd adj) s = .next t ∧ Accepted s.env.picked s t ∧
      ∀ answer u w, u = sequencerStep answer t →
        w = wideBudget s.cfg s.slp.lpClkFreqHz s.clk.cur.freqMhz mf pd adj →
        u = { s with
          mbox := u.mbox, seq := u.seq,
          slp := { s.slp with
            state := .paramsBuilt, programmed := false,
            params := {
              hp := if mf.extractLsb' 0 2 = 2 then s.slp.pmt[2] else s.slp.pmt[1],
              lp := if mf.getLsbD 4 = true then s.slp.pmt[4] else s.slp.pmt[3],
              modeFlags := mf, pdFlags := pd, budget := u.slp.params.budget } } } ∧
        u.slp.params.budget.lpWait.toNat = w.lpWait ∧ u.slp.params.budget.hpWait.toNat = w.hpWait ∧
        u.slp.params.budget.xtalStableWait.toNat = w.xtalStableWait ∧
        u.slp.params.budget.pllStableWait.toNat = w.pllStableWait ∧
        u.slp.params.budget.modemWakeupWait.toNat = w.modemWakeupWait ∧
        u.slp.params.budget.regdmaWait.toNat = w.regdmaWait ∧
        u.slp.params.budget.totalGuardTimeUs.toNat = w.totalGuardTimeUs ∧
        resList u s.env.picked =
          [u.slp.params.budget.lpWait, u.slp.params.budget.hpWait, u.slp.params.budget.totalGuardTimeUs] ++
            (resList s s.env.picked).drop 3 ∧
        Released s.env.picked u ∧ OpEnded s.env.picked .ok s u

/-- R122, R135: the checks of BUILD_PARAMS at the current CPU frequency and of ENTER_SLEEP at the crystal's, each deciding only
where the ones before it pass. -/
def Obligations.BudgetRefusals : Prop :=
  ∀ (deep : Bool) (wk rj mf pd adj : Word) (s : State) (i : Instr) (mhz : Word), Ready s →
    (i = .buildParams mf pd adj ∧ mhz = s.clk.cur.freqMhz ∨
      i = .enterSleep deep wk rj mf pd adj ∧ mhz = s.cfg.xtalFreqMhz) →
    ∃ t, exec i s = .next t ∧
      (modeFlagsOk s.cfg mf = false → RefusedWith s.env.picked .badMode s t) ∧
      (modeFlagsOk s.cfg mf = true → s.slp.lpClkFreqHz = 0 → RefusedWith s.env.picked .invalidConfig s t) ∧
      (modeFlagsOk s.cfg mf = true → s.slp.lpClkFreqHz ≠ 0 →
        budgetFits (wideBudget s.cfg s.slp.lpClkFreqHz mhz mf pd adj) = false →
        RefusedWith s.env.picked .budgetOverflow s t)

/-- R128, R129: PROGRAM, in `ParamsBuilt`, writes the table of R129 in order, latches the seven waits and sets `programmed`; it
may be repeated, and nothing else changes. That the flag, `OK` and the release come in the micro-step of the last write is the
model's deduction (log 6). -/
def Obligations.ProgramRuns : Prop :=
  ∀ s : State, Ready s → s.slp.state = .paramsBuilt →
    ∃ t, exec .program s = .next t ∧ Accepted s.env.picked s t ∧
      ∀ (answers : List Bool) (u : State), answers.length = (programEvents s.slp s.cfg.hasModemMode).length →
        u = runSequencer answers t →
        u = { s with
          mbox := u.mbox, seq := u.seq, slp := { s.slp with programmed := true, hwwait := s.slp.params.budget },
          trace := s.trace ++ programEvents s.slp s.cfg.hasModemMode } ∧
        Released s.env.picked u ∧ OpEndedPlain s.env.picked .ok s u

/-- R128, R130: PROGRAM outside `ParamsBuilt`, and ENTER outside it or before PROGRAM, are turned away with `SEQ_ORDER`. -/
def Obligations.SleepOrderRefusals : Prop :=
  (∀ s : State, Ready s → s.slp.state ≠ .paramsBuilt →
    ∃ t, exec .program s = .next t ∧ RefusedWith s.env.picked .seqOrder s t) ∧
  ∀ (deep : Bool) (wk rj : Word) (s : State), Ready s → (s.slp.state ≠ .paramsBuilt ∨ s.slp.programmed = false) →
    ∃ t, exec (.enter deep wk rj) s = .next t ∧ RefusedWith s.env.picked .seqOrder s t

/-- R133: REGDMA_EN is opcode 0x33 of format N, sequenced: one write and the flag where it is not enabled, nothing otherwise;
`OK` either way. That it ends with the write's micro-step, and with nothing to write in its acceptance, is the
model's choice (log 6). -/
def Obligations.RegdmaEnRuns : Prop :=
  (∀ a : Regs5, decode 0x33000000 a = .ok .regdmaEn) ∧ isSequenced .regdmaEn = true ∧
  ∀ s : State, Ready s →
    (s.slp.regdmaEnabled = false →
      ∃ t, exec .regdmaEn s = .next t ∧ Accepted s.env.picked s t ∧ ∀ answer u, u = sequencerStep answer t →
        u = { s with
          mbox := u.mbox, seq := u.seq, slp := { s.slp with regdmaEnabled := true },
          trace := s.trace ++ [.w .regdmaBackupEn 1] } ∧
        Released s.env.picked u ∧ OpEndedPlain s.env.picked .ok s u) ∧
    (s.slp.regdmaEnabled = true →
      ∃ t, exec .regdmaEn s = .next t ∧ SameButSequencing s t ∧ Released s.env.picked t ∧
        OpEndedPlain s.env.picked .ok s t)

/-- R134: REGDMA_DIS is opcode 0x34 of format N, sequenced: one write and the flag where it is enabled, nothing otherwise; `OK`
either way. That it ends with the write's micro-step, and with nothing to write in its acceptance, is the
model's choice (log 6). -/
def Obligations.RegdmaDisRuns : Prop :=
  (∀ a : Regs5, decode 0x34000000 a = .ok .regdmaDis) ∧ isSequenced .regdmaDis = true ∧
  ∀ s : State, Ready s →
    (s.slp.regdmaEnabled = true →
      ∃ t, exec .regdmaDis s = .next t ∧ Accepted s.env.picked s t ∧ ∀ answer u, u = sequencerStep answer t →
        u = { s with
          mbox := u.mbox, seq := u.seq, slp := { s.slp with regdmaEnabled := false },
          trace := s.trace ++ [.w .regdmaBackupEn 0] } ∧
        Released s.env.picked u ∧ OpEndedPlain s.env.picked .ok s u) ∧
    (s.slp.regdmaEnabled = false →
      ∃ t, exec .regdmaDis s = .next t ∧ SameButSequencing s t ∧ Released s.env.picked t ∧
        OpEndedPlain s.env.picked .ok s t)

/-- R130, R131, R139, 60_exceptions.md R154: ENTER with an enabled reject line up at the sleep start: the handshake's events with
exactly one status poll, any number of auxiliary polls, `RES0` = 1 and `OK`. At every boundary of the run `slp_state` is not
`Asleep` and `asleep` is as ENTER found it, which is false in every state that keeps the sleep invariant. That `RES0`, `OK` and
the release come in the last micro-step of `enter_body` is the model's deduction (log 6). -/
def Obligations.EnterRejected : Prop :=
  ∀ (deep : Bool) (wk rj : Word) (s : State) (start : List Bool) (k : Nat) (z : Bool), Ready s →
    s.slp.state = .paramsBuilt → s.slp.programmed = true → s.env.rejectLines &&& rj ≠ 0 → start.length = 6 →
    ∃ t, exec (.enter deep wk rj) s = .next t ∧ Accepted s.env.picked s t ∧
      (∀ n v, v = runSequencer ((start ++ List.replicate k false ++ [true, z]).take n) t →
        v.slp.asleep = s.slp.asleep ∧ v.slp.state ≠ .asleep ∧ (SleepBitsInv s → v.slp.asleep = false)) ∧
      ∀ u, u = runSequencer (start ++ List.replicate k false ++ [true, z]) t →
        u = { s with
          mbox := u.mbox, seq := u.seq,
          slp := { s.slp with
            state := .idle, programmed := false, wakeType := deep, wakeEn := wk, rejectEn := rj,
            wakeupOccurred := false, sleepRejected := true },
          trace := s.trace ++ handshakeWrites deep wk rj ++ [.r .intStatus 2] ++ List.replicate k (.r .auxIdle 0) ++
            [.r .auxIdle 1] } ∧
        resList u s.env.picked = 1 :: (resList s s.env.picked).tail ∧
        Released s.env.picked u ∧ OpEnded s.env.picked .ok s u

/-- R130, R131, R139, R140: ENTER with no enabled reject line up and an enabled wake line up: asleep, polls that read 0, the
trigger, the programmed LP and HP ticks with no poll between them, a poll that reads 1, the auxiliary polls, `RES0` = 0 and `OK`.
That `RES0`, `OK` and the release come in the last micro-step of `enter_body` is the model's deduction (log 6). -/
def Obligations.EnterWoken : Prop :=
  ∀ (deep : Bool) (wk rj : Word) (s : State) (p k : Nat) (z : Bool), Ready s →
    s.slp.state = .paramsBuilt → s.slp.programmed = true → s.env.rejectLines &&& rj = 0 →
    s.env.wakeLines &&& wk ≠ 0 →
    ∃ t, exec (.enter deep wk rj) s = .next t ∧ Accepted s.env.picked s t ∧
      (runSequencer (List.replicate 5 false) t).slp.asleep = true ∧
      (runSequencer (List.replicate 5 false) t).slp.state = .asleep ∧
      ∃ u, runActions
          (List.replicate (5 + p) (.sequencer false) ++ wakeSchedule s.slp.hwwait ++ [.sequencer false] ++
            List.replicate k (.sequencer false) ++ [.sequencer true, .sequencer z]) t = .next u ∧
        u = { s with
          mbox := u.mbox, seq := u.seq,
          slp := { s.slp with
            state := .idle, programmed := false, wakeType := deep, wakeEn := wk, rejectEn := rj,
            wakeupOccurred := true, sleepRejected := false, asleep := false, wtPhase := .off, wtCount := 0 },
          trace := s.trace ++ handshakeWrites deep wk rj ++ List.replicate p (.r .intStatus 0) ++ [.r .intStatus 1] ++
            List.replicate k (.r .auxIdle 0) ++ [.r .auxIdle 1] } ∧
        resList u s.env.picked = 0 :: (resList s s.env.picked).tail ∧
        Released s.env.picked u ∧ OpEnded s.env.picked .ok s u

/-- R141: ENTER with no enabled line up comes to rest at its status poll, and, whatever the hosts and the environment do short of
RESET and of raising an enabled wake line, it stays there: no timeout, no fault and no wake of its own. Only the acceptance of
another op can end it, a PLL_REMOVE_CONSUMER whose fatal fault (41_pll.md R110, 60_exceptions.md R156) halts the block. -/
def Obligations.EnterNeverEndsWithoutAWake : Prop :=
  (∀ (deep : Bool) (wk rj : Word) (s : State), Ready s → s.slp.state = .paramsBuilt → s.slp.programmed = true →
    s.env.rejectLines &&& rj = 0 → s.env.wakeLines &&& wk = 0 →
    ∃ t, exec (.enter deep wk rj) s = .next t ∧ SleepingIdle (runSequencer (List.replicate 5 false) t) ∧
      (runSequencer (List.replicate 5 false) t).slp.wakeEn = wk) ∧
  ∀ (s u : State) (actions : List Action), SleepingIdle s → (∀ a ∈ actions, noWakeIn s.slp.wakeEn a) →
    runActions actions s = .next u →
    (SleepingIdle u ∧ u.seq.owner = s.seq.owner ∧ u.fault = s.fault) ∨
      u.fault.halted = true ∧
        (s.fault.halted = true ∨
          ∃ c id, Action.accept c ∈ actions ∧ u.fault = { halted := true, code := 0x03, info := pllFaultInfo id 2 })

/-- R140, R165: the hardware micro-steps do nothing while not asleep and change nothing but the timer, `asleep` and
`wakeup_occurred`; from an enabled wake line the wake takes exactly the programmed LP ticks and then HP ticks, and nothing
short of that sets the status bit: a timer step happens only in its phase, a tick only above 0 and the end of a phase only at
0. That an action which is not enabled does nothing is the model's choice (log 4).
60_exceptions.md R171 (f), 10_state.md R15: a change of the wake or of the reject lines changes that input alone, and the
environment's addition to `cycle_counter` is modulo 2^32 and changes nothing else. That all of this holds in HALT too is the
model's deduction (log 22). -/
def Obligations.WakeSequenceSpendsTheBudget : Prop :=
  (∀ (a : Action) (s : State), a ∈ [Action.wakeTrigger, .lpTick, .lpDone, .hpTick, .hpDone] →
    ∃ t, act a s = .next t ∧
      t = { s with
        slp := { s.slp with
          wtPhase := t.slp.wtPhase, wtCount := t.slp.wtCount, asleep := t.slp.asleep,
          wakeupOccurred := t.slp.wakeupOccurred } } ∧
      (s.slp.asleep = false → t = s)) ∧
  (∀ s : State,
    act .wakeTrigger s = .next (
      if s.slp.asleep = true ∧ s.slp.wtPhase = .off ∧ s.env.wakeLines &&& s.slp.wakeEn ≠ 0 then
        { s with slp := { s.slp with wtPhase := .lpWait, wtCount := s.slp.hwwait.lpWait } } else s) ∧
    act .lpTick s = .next (
      if s.slp.asleep = true ∧ s.slp.wtPhase = .lpWait ∧ s.slp.wtCount ≠ 0 then
        { s with slp := { s.slp with wtCount := s.slp.wtCount - 1 } } else s) ∧
    act .lpDone s = .next (
      if s.slp.asleep = true ∧ s.slp.wtPhase = .lpWait ∧ s.slp.wtCount = 0 then
        { s with slp := { s.slp with wtPhase := .hpWait, wtCount := s.slp.hwwait.hpWait } } else s) ∧
    act .hpTick s = .next (
      if s.slp.asleep = true ∧ s.slp.wtPhase = .hpWait ∧ s.slp.wtCount ≠ 0 then
        { s with slp := { s.slp with wtCount := s.slp.wtCount - 1 } } else s) ∧
    act .hpDone s = .next (
      if s.slp.asleep = true ∧ s.slp.wtPhase = .hpWait ∧ s.slp.wtCount = 0 then
        { s with slp := { s.slp with wtPhase := .off, asleep := false, wakeupOccurred := true } } else s)) ∧
  (∀ (s u : State) (actions : List Action), s.slp.asleep = true → s.slp.wtPhase = .off → s.slp.wakeupOccurred = false →
    (∀ a ∈ actions, a ∈ [Action.wakeTrigger, .lpTick, .lpDone, .hpTick, .hpDone]) → runActions actions s = .next u →
    u.slp.wakeupOccurred = true →
    s.slp.hwwait.lpWait.toNat ≤ actions.count .lpTick ∧ s.slp.hwwait.hpWait.toNat ≤ actions.count .hpTick) ∧
  (∀ (v : Word) (s : State),
    act (.setWakeLines v) s = .next { s with env := { s.env with wakeLines := v } } ∧
    act (.setRejectLines v) s = .next { s with env := { s.env with rejectLines := v } } ∧
    ∃ t, act (.addCycles v) s = .next t ∧ t = { s with clk := { s.clk with cycleCounter := t.clk.cycleCounter } } ∧
      t.clk.cycleCounter.toNat = (s.clk.cycleCounter.toNat + v.toNat) % 2 ^ 32) ∧
  ∀ s : State, s.slp.asleep = true → s.slp.wtPhase = .off → s.slp.wakeupOccurred = false →
    s.env.wakeLines &&& s.slp.wakeEn ≠ 0 →
    runActions (wakeSchedule s.slp.hwwait) s =
      .next { s with
        slp := { s.slp with asleep := false, wakeupOccurred := true, wtPhase := .off, wtCount := 0 } } ∧
    ∀ n u, n < (wakeSchedule s.slp.hwwait).length → runActions ((wakeSchedule s.slp.hwwait).take n) s = .next u →
      u.slp.asleep = true ∧ u.slp.wakeupOccurred = false

/-- R135, R131: ENTER_SLEEP turned back by a reject line: the crystal, the parameters at the crystal's frequency, PROGRAM, the
handshake, and from there (`v`) the saved configuration applied again, `RES0` = 1 and `OK`. That `RES1` to `RES4` are left alone
is the model's deduction (log 10). -/
def Obligations.EnterSleepRejectedRestores : Prop :=
  ∀ (deep : Bool) (wk rj mf pd adj : Word) (s : State) (b : SleepBudget), cfgOk s.cfg = true → Ready s →
    modeFlagsOk s.cfg mf = true → 1 ≤ s.slp.lpClkFreqHz.toNat →
    budgetFits (wideBudget s.cfg s.slp.lpClkFreqHz s.cfg.xtalFreqMhz mf pd adj) = true →
    sourceHeld s.clk.cur = true → s.env.rejectLines &&& rj ≠ 0 →
    b = narrowBudget (wideBudget s.cfg s.slp.lpClkFreqHz s.cfg.xtalFreqMhz mf pd adj) →
    ∃ t, exec (.enterSleep deep wk rj mf pd adj) s = .next t ∧ Accepted s.env.picked s t ∧
      ∃ m n v u, v = runSequencer (List.replicate m true) t ∧ v.clk.cur = xtalNative s.cfg ∧
        v.trace = s.trace ++ switchEvents s (xtalNative s.cfg) ++ programEvents u.slp s.cfg.hasModemMode ++
          handshakeWrites deep wk rj ++ [.r .intStatus 2, .r .auxIdle 1] ∧
        u = runSequencer (List.replicate n true) v ∧ u.trace = v.trace ++ switchEvents v s.clk.cur ∧
        Released s.env.picked u ∧ OpEnded s.env.picked .ok s u ∧
        resList u s.env.picked = 1 :: (resList s s.env.picked).tail ∧
        u.slp = { s.slp with
          state := .idle, programmed := false, savedCfg := s.clk.cur, wakeType := deep, wakeEn := wk, rejectEn := rj,
          wakeupOccurred := false, sleepRejected := true, hwwait := b,
          params := { hp := hpModeParams s.slp mf, lp := lpModeParams s.slp mf, modeFlags := mf, pdFlags := pd, budget := b } } ∧
        ClockRestored s u

/-- R135, R140: ENTER_SLEEP, not rejected and with an enabled wake line up: asleep on the crystal (`v`) until the budget is spent,
then the saved configuration applied again, `RES0` = 0 and `OK`. That `RES1` to `RES4` are left alone is the model's deduction
(log 10). -/
def Obligations.EnterSleepWakesAndRestores : Prop :=
  ∀ (deep : Bool) (wk rj mf pd adj : Word) (s : State) (b : SleepBudget), cfgOk s.cfg = true → Ready s →
    modeFlagsOk s.cfg mf = true → 1 ≤ s.slp.lpClkFreqHz.toNat →
    budgetFits (wideBudget s.cfg s.slp.lpClkFreqHz s.cfg.xtalFreqMhz mf pd adj) = true →
    sourceHeld s.clk.cur = true → s.env.rejectLines &&& rj = 0 → s.env.wakeLines &&& wk ≠ 0 →
    b = narrowBudget (wideBudget s.cfg s.slp.lpClkFreqHz s.cfg.xtalFreqMhz mf pd adj) →
    ∃ t, exec (.enterSleep deep wk rj mf pd adj) s = .next t ∧ Accepted s.env.picked s t ∧
      ∃ m n v u, v = runSequencer (List.replicate m true) t ∧ v.clk.cur = xtalNative s.cfg ∧ v.slp.asleep = true ∧
        v.slp.state = .asleep ∧ v.slp.hwwait = b ∧
        v.trace = s.trace ++ switchEvents s (xtalNative s.cfg) ++ programEvents u.slp s.cfg.hasModemMode ++
          handshakeWrites deep wk rj ∧
        runActions (wakeSchedule b ++ List.replicate n (.sequencer true)) v = .next u ∧
        u.trace = v.trace ++ [.r .intStatus 1, .r .auxIdle 1] ++ switchEvents v s.clk.cur ∧
        Released s.env.picked u ∧ OpEnded s.env.picked .ok s u ∧
        resList u s.env.picked = 0 :: (resList s s.env.picked).tail ∧
        u.slp = { s.slp with
          state := .idle, programmed := false, savedCfg := s.clk.cur, wakeType := deep, wakeEn := wk, rejectEn := rj,
          wakeupOccurred := true, sleepRejected := false, asleep := false, wtPhase := .off, wtCount := 0, hwwait := b,
          params := { hp := hpModeParams s.slp mf, lp := lpModeParams s.slp mf, modeFlags := mf, pdFlags := pd, budget := b } } ∧
        ClockRestored s u

/-- R135, 40_clocktree.md R93, 60_exceptions.md R157 (b): where ENTER_SLEEP powered the CPU's PLL down and every poll of its
restore answers 0, the block halts on the crystal, `Idle`, whether the sleep was rejected or had woken. That no `RES` register
is written is the model's deduction (log 10), and so is that step 5 and the fault come in the micro-step of the last poll, so
that exactly `CAL_TIMEOUT_POLLS` answers of 0 end the op (log 9). -/
def Obligations.EnterSleepRestoreTimesOut : Prop :=
  ∀ (deep : Bool) (wk rj mf pd adj : Word) (s : State) (p : PllId) (b : SleepBudget), cfgOk s.cfg = true → Ready s →
    modeFlagsOk s.cfg mf = true → 1 ≤ s.slp.lpClkFreqHz.toNat →
    budgetFits (wideBudget s.cfg s.slp.lpClkFreqHz s.cfg.xtalFreqMhz mf pd adj) = true →
    validConfig s.cfg s.clk.cur = true → s.clk.cur.source = .pll p → (pllAt s p).consumerCount = 0 →
    b = narrowBudget (wideBudget s.cfg s.slp.lpClkFreqHz s.cfg.xtalFreqMhz mf pd adj) →
    ∃ t, exec (.enterSleep deep wk rj mf pd adj) s = .next t ∧ Accepted s.env.picked s t ∧
      (s.env.rejectLines &&& rj ≠ 0 → ∃ m u,
        u = runSequencer (List.replicate m true ++ List.replicate s.cfg.calTimeoutPolls false) t ∧
        RestoreTimedOut s p u ∧ u.slp.sleepRejected = true ∧ u.slp.wakeupOccurred = false ∧ u.slp.asleep = s.slp.asleep ∧
        u.trace = s.trace ++ switchEvents s (xtalNative s.cfg) ++ programEvents u.slp s.cfg.hasModemMode ++
          handshakeWrites deep wk rj ++ [.r .intStatus 2, .r .auxIdle 1] ++ timedOutCalibration s.cfg p false s.clk.cur.sourceFreqMhz) ∧
      (s.env.rejectLines &&& rj = 0 → s.env.wakeLines &&& wk ≠ 0 → ∃ m n v u,
        v = runSequencer (List.replicate m true) t ∧ v.slp.asleep = true ∧ v.slp.hwwait = b ∧
        runActions (wakeSchedule b ++ List.replicate n (.sequencer true) ++
          List.replicate s.cfg.calTimeoutPolls (.sequencer false)) v = .next u ∧
        RestoreTimedOut s p u ∧ u.slp.sleepRejected = false ∧ u.slp.wakeupOccurred = true ∧ u.slp.asleep = false ∧
        v.trace = s.trace ++ switchEvents s (xtalNative s.cfg) ++ programEvents u.slp s.cfg.hasModemMode ++
          handshakeWrites deep wk rj ∧
        u.trace = v.trace ++ [.r .intStatus 1, .r .auxIdle 1] ++ timedOutCalibration s.cfg p false s.clk.cur.sourceFreqMhz)

/-- R136: CFG_PWR_MODE_DEFAULTS is opcode 0x06 of format M, immediate: turned away for a mode the chip does not have; else the
read-only default words in `RES0..RES4`, whatever the working copy holds, and nothing changes but the issuer's mailbox. -/
def Obligations.CfgPwrModeDefaultsRuns : Prop :=
  (∀ (k : BitVec 3) (a : Regs5), decode (commandWord 0x06 (immMode k)) a = .ok (.cfgPwrModeDefaults k)) ∧
  (∀ k, isSequenced (.cfgPwrModeDefaults k) = false) ∧
  ∀ (k : BitVec 3) (s : State), s.fault.halted = false →
    ∃ t, exec (.cfgPwrModeDefaults k) s = .next t ∧
      ((4 < k.toNat ∨ k = 1 ∧ s.cfg.hasModemMode = false) → RefusedWith s.env.picked .badMode s t) ∧
      ∀ p, s.cfg.pmtDefault[k.toNat]? = some p → (k = 1 → s.cfg.hasModemMode = true) →
        SameButMailboxes s t ∧ OpEnded s.env.picked .ok s t ∧
        resList t s.env.picked = [p.pwr, p.ckg, p.ana, p.pad, p.ret]

/-! ### The host window -/

/-- 20_memory.md R42, R44: a read in the window changes nothing but the value handed to the host, and none is handed for an access
that is not an aligned word; such a write changes nothing. The field the value is kept in, and that it is none then, are the
model's (log 13). 10_state.md R35, R36: what every register but the packed views reads, 0 at `CMD` and at every reserved
offset, those of a PLL, a core or a Modem entry that the chip does not have among them. -/
def Obligations.HostReadsHaveNoEffect : Prop :=
  (∀ (addr : Word) (bytes : Nat) (v : Word) (s : State), windowOffset s.cfg addr < 0x1000 →
    (∃ t, act (.hostRead addr bytes) s = .next t ∧ t = { s with env := { s.env with readData := t.env.readData } } ∧
      (bytes = 4 → addr.toNat % 4 = 0 → t.env.readData = some (readReg s (windowOffset s.cfg addr))) ∧
      (¬(bytes = 4 ∧ addr.toNat % 4 = 0) → t.env.readData = none)) ∧
    (¬(bytes = 4 ∧ addr.toNat % 4 = 0) → act (.hostWrite addr bytes v) s = .next s)) ∧
  ∀ s : State,
    (readReg s 0x004 = s.clk.cur.sourceFreqMhz ∧ readReg s 0x00C = s.clk.cur.freqMhz ∧
      readReg s 0x010 = s.clk.ticksPerUs ∧ readReg s 0x014 = s.clk.cycleCounter ∧ readReg s 0x018 = s.curPllFreqMhz ∧
      readReg s 0x01C = s.slp.lpClkFreqHz ∧ readReg s 0x024 = s.slp.wakeEn ∧ readReg s 0x028 = s.slp.rejectEn ∧
      readReg s 0x038 = s.slp.wtCount) ∧
    (∀ (base : Nat) (b : SleepBudget), base = 0x040 ∧ b = s.slp.params.budget ∨ base = 0x060 ∧ b = s.slp.hwwait →
      (List.range 7).map (fun j => readReg s (base + 4 * j)) =
        [b.lpWait, b.hpWait, b.xtalStableWait, b.pllStableWait, b.modemWakeupWait, b.regdmaWait, b.totalGuardTimeUs]) ∧
    (∀ id : PllId, id.toNat < 8 → id.toNat < s.cfg.nPll →
      readReg s (0x084 + 0x10 * id.toNat) = (pllAt s id).configuredFreqMhz ∧
      readReg s (0x088 + 0x10 * id.toNat) = (pllAt s id).consumerCount) ∧
    (∀ c : Core, c.val < s.cfg.nCores →
      (List.range 5).map (fun i => readReg s (0x104 + 0x40 * c.val + 4 * i)) = (mboxAt s c).arg.toList ∧
      (List.range 5).map (fun i => readReg s (0x11C + 0x40 * c.val + 4 * i)) = resList s c) ∧
    (∀ (k : Fin 5) (p : ModeParams), (k.val = 1 → s.cfg.hasModemMode = true) → p = s.slp.pmt[k.val] →
      (List.range 5).map (fun w => readReg s (0x300 + 0x20 * k.val + 4 * w)) = [p.pwr, p.ckg, p.ana, p.pad, p.ret]) ∧
    (∀ e : Fin 3, (e.val = 2 → s.cfg.hasModemMode = true) → readReg s (0x3A0 + 4 * e.val) = s.slp.bkp[e.val]) ∧
    ∀ off, off < 0x1000 → off % 4 = 0 →
      (off = 0x03C ∨ off = 0x05C ∨ off = 0x07C ∨ 0x3AC ≤ off ∨
        (∃ id r, off = 0x080 + 0x10 * id + r ∧ id < 8 ∧ r < 0x10 ∧ (s.cfg.nPll ≤ id ∨ r = 0xC)) ∨
        (∃ c r, off = 0x100 + 0x40 * c + r ∧ c < 8 ∧ r < 0x40 ∧ (s.cfg.nCores ≤ c ∨ r = 0 ∨ 0x30 ≤ r)) ∨
        (∃ k r, off = 0x300 + 0x20 * k + r ∧ k < 5 ∧ r < 0x20 ∧ (0x14 ≤ r ∨ k = 1 ∧ s.cfg.hasModemMode = false)) ∨
        (off = 0x3A8 ∧ s.cfg.hasModemMode = false)) →
      readReg s off = 0

/-- 10_state.md R35, R36: what a word written to each writable register does, and that it changes nothing else: `CMD` issues the
op unless one of that core is pending or running; `PMT` and `BKP` are closed while `busy`. -/
def Obligations.HostWritesReachTheirRegisters : Prop :=
  ∀ (s : State) (v : Word) (addr : Nat → Word), cfgOk s.cfg = true →
    (∀ off, addr off = s.cfg.cscBase + BitVec.ofNat 32 off) →
    act (.hostWrite (addr 0x01C) 4 v) s = .next { s with slp := { s.slp with lpClkFreqHz := v } } ∧
    (∀ c : Core, c.val < s.cfg.nCores →
      (∃ t, act (.hostWrite (addr (0x100 + 0x40 * c.val)) 4 v) s = .next t ∧ SameButMailboxes s t ∧
        OtherMailboxesSame c s t ∧
        mboxAt t c =
          if (mboxAt s c).pending = true ∨ (mboxAt s c).running = true then mboxAt s c
          else { mboxAt s c with cmd := v, pending := true, done := false }) ∧
      ∀ i : Fin 5, ∃ t, act (.hostWrite (addr (0x104 + 0x40 * c.val + 4 * i.val)) 4 v) s = .next t ∧
        SameButMailboxes s t ∧ OtherMailboxesSame c s t ∧
        mboxAt t c = { mboxAt s c with arg := (mboxAt s c).arg.set i.val v }) ∧
    (∀ (k w : Fin 5) (p q : ModeParams), (k.val = 1 → s.cfg.hasModemMode = true) → q = s.slp.pmt[k.val] →
      [{ q with pwr := v }, { q with ckg := v }, { q with ana := v }, { q with pad := v }, { q with ret := v }][w.val]? =
        some p →
      act (.hostWrite (addr (0x300 + 0x20 * k.val + 4 * w.val)) 4 v) s =
        .next (if s.seq.busy = true then s else { s with slp := { s.slp with pmt := s.slp.pmt.set k.val p } })) ∧
    ∀ e : Fin 3, (e.val = 2 → s.cfg.hasModemMode = true) →
      act (.hostWrite (addr (0x3A0 + 4 * e.val)) 4 v) s =
        .next (if s.seq.busy = true then s else { s with slp := { s.slp with bkp := s.slp.bkp.set e.val v } })

/-- R35, R36: a write to any other register of the window changes nothing: the views, the read-only mailbox registers, every
reserved offset, a mailbox of a core the chip does not have, and the Modem entries of a chip without the Modem mode. It is
said of the register, and of a host's access to its address. -/
def Obligations.OtherHostWritesAreIgnored : Prop :=
  ∀ (s : State) (off : Nat) (v : Word), off < 0x1000 →
    (off < 0x100 ∧ off ≠ 0x01C ∨ 0x3AC ≤ off ∨
      (∃ c r, off = 0x100 + 0x40 * c + r ∧ c < 8 ∧ r < 0x40 ∧ (s.cfg.nCores ≤ c ∨ 0x18 ≤ r)) ∨
      (∃ k r, off = 0x300 + 0x20 * k + r ∧ k < 5 ∧ r < 0x20 ∧ (0x14 ≤ r ∨ k = 1 ∧ s.cfg.hasModemMode = false)) ∨
      (off = 0x3A8 ∧ s.cfg.hasModemMode = false)) →
    writeReg off v s = s ∧ ∀ addr : Word, addr = s.cfg.cscBase + BitVec.ofNat 32 off → act (.hostWrite addr 4 v) s = .next s

/-- R10, R35: every packed view, field by field, with every reserved bit 0, and `PLL_STATE` 0 for a PLL the chip does not have. -/
def Obligations.PackedViewsReadTheirFields : Prop :=
  ∀ s : State,
    ((readReg s 0x000).extractLsb' 0 2 = (match s.clk.state with | .onCrystal => 0 | .onPll _ => 1 | .onFastRc => 2) ∧
      (readReg s 0x000).extractLsb' 2 6 = 0 ∧
      (readReg s 0x000).extractLsb' 8 8 = (match s.clk.state with | .onPll id => id | _ => 0) ∧
      (readReg s 0x000).extractLsb' 16 16 = 0) ∧
    ((readReg s 0x008).extractLsb' 0 8 = s.clk.cur.divider.int ∧ (readReg s 0x008).extractLsb' 8 8 = s.clk.cur.divider.num ∧
      (readReg s 0x008).extractLsb' 16 8 = s.clk.cur.divider.den ∧ (readReg s 0x008).extractLsb' 24 8 = 0) ∧
    ((readReg s 0x020).extractLsb' 0 3 =
        (match s.slp.state with | .idle => 0 | .paramsBuilt => 1 | .armed => 2 | .asleep => 3 | .wokenOrRejected => 4) ∧
      (readReg s 0x020).getLsbD 3 = false ∧ (readReg s 0x020).getLsbD 4 = s.slp.programmed ∧
      (readReg s 0x020).getLsbD 5 = s.slp.regdmaEnabled ∧ (readReg s 0x020).getLsbD 6 = s.slp.asleep ∧
      (readReg s 0x020).getLsbD 7 = s.slp.wakeType ∧
      (readReg s 0x020).extractLsb' 8 2 = (match s.slp.wtPhase with | .off => 0 | .lpWait => 1 | .hpWait => 2) ∧
      (readReg s 0x020).extractLsb' 10 22 = 0) ∧
    ((readReg s 0x02C).getLsbD 0 = s.slp.wakeupOccurred ∧ (readReg s 0x02C).getLsbD 1 = s.slp.sleepRejected ∧
      (readReg s 0x02C).extractLsb' 2 30 = 0) ∧
    ((readReg s 0x030).getLsbD 0 = s.fault.halted ∧ (readReg s 0x030).extractLsb' 1 7 = 0 ∧
      (readReg s 0x030).extractLsb' 8 8 = s.fault.code ∧ (readReg s 0x030).extractLsb' 16 16 = s.fault.info) ∧
    ((readReg s 0x034).getLsbD 0 = s.seq.busy ∧ (readReg s 0x034).extractLsb' 1 7 = 0 ∧
      (readReg s 0x034).extractLsb' 8 8 = (if s.seq.busy = true then BitVec.ofNat 8 s.seq.owner.val else 0) ∧
      (readReg s 0x034).extractLsb' 16 16 = 0) ∧
    (∀ (id : PllId) (w : Word), id.toNat < 8 → w = readReg s (0x080 + 0x10 * id.toNat) →
      (id.toNat < s.cfg.nPll →
        w.getLsbD 0 = (pllAt s id).enabled ∧
        w.extractLsb' 1 2 = (match (pllAt s id).calState with | .calIdle => 0 | .calStarted => 1 | .calFailed => 2) ∧
        w.extractLsb' 3 29 = 0) ∧
      (s.cfg.nPll ≤ id.toNat → w = 0)) ∧
    ∀ (c : Core) (w : Word), c.val < s.cfg.nCores → w = readReg s (0x118 + 0x40 * c.val) →
      w.getLsbD 0 = (mboxAt s c).pending ∧ w.getLsbD 1 = (mboxAt s c).running ∧ w.getLsbD 2 = (mboxAt s c).done ∧
      w.extractLsb' 3 5 = 0 ∧ w.extractLsb' 8 8 = (mboxAt s c).code ∧ w.extractLsb' 16 16 = 0

/-! ### Faults and reset -/

/-- 60_exceptions.md R156, R162, 10_state.md R34: in HALT a step that is not RESET changes nothing but the mailboxes, the host's
own registers, the free-running counter, the wake sequence of a sleeping block, and the environment; the fault record stays
as it is. -/
def Obligations.HaltFreezesTheBlock : Prop :=
  ∀ s t : State, s.fault.halted = true → step s = .next t → nextAction s ≠ .reset →
    t = { s with
      mbox := t.mbox, env := t.env, clk := { s.clk with cycleCounter := t.clk.cycleCounter },
      slp := { s.slp with
        pmt := t.slp.pmt, bkp := t.slp.bkp, lpClkFreqHz := t.slp.lpClkFreqHz, wtPhase := t.slp.wtPhase,
        wtCount := t.slp.wtCount, asleep := t.slp.asleep, wakeupOccurred := t.slp.wakeupOccurred } } ∧
    ∀ c, (mboxAt t c).res = (mboxAt s c).res

/-- 70_reset_and_hazards.md R180, R181: RESET, from every state, HALT included, puts every element of the block at its reset value
in one step. That the chip and the environment's lines and agenda stay, and its other fields are cleared, is the model's choice
(log 14). -/
def Obligations.ResetValues : Prop :=
  (∀ s : State, act .reset s =
    .next { State.resetOf s.cfg with env := { s.env with picked := 0, readData := none } }) ∧
  ∀ (cfg : Cfg) (z : State), z = State.resetOf cfg →
    (∀ c, mboxAt z c = {
      cmd := 0, arg := #v[0, 0, 0, 0, 0], pending := false, running := false, done := false, code := 0,
      res := #v[0, 0, 0, 0, 0] }) ∧
    z.seq.busy = false ∧ z.seq.owner = 0 ∧ z.clk.state = .onCrystal ∧ z.clk.cur = xtalNative cfg ∧
    z.slp.savedCfg = xtalNative cfg ∧ z.clk.hw.mux = .crystal ∧ z.clk.hw.cpuDiv = { int := 1, num := 0, den := 0 } ∧
    z.clk.hw.busDiv = busDivs cfg (xtalNative cfg) ∧ z.clk.ticksPerUs = cfg.xtalFreqMhz ∧ z.clk.cycleCounter = 0 ∧
    (∀ id, pllAt z id = {
      enabled := false, configuredFreqMhz := 0, consumerCount := 0, calState := .calIdle, calPollsLeft := 0 }) ∧
    z.curPllFreqMhz = 0 ∧ z.lastCalPll = 0 ∧ z.slp.state = .idle ∧ z.slp.pmt = cfg.pmtDefault ∧
    z.slp.bkp = cfg.backupDefault ∧
    z.slp.params = {
      hp := ⟨0, 0, 0, 0, 0⟩, lp := ⟨0, 0, 0, 0, 0⟩, modeFlags := 0, pdFlags := 0, budget := ⟨0, 0, 0, 0, 0, 0, 0⟩ } ∧
    z.slp.hwwait = ⟨0, 0, 0, 0, 0, 0, 0⟩ ∧ z.slp.programmed = false ∧ z.slp.regdmaEnabled = false ∧
    z.slp.wakeType = false ∧ z.slp.wakeEn = 0 ∧ z.slp.rejectEn = 0 ∧ z.slp.wakeupOccurred = false ∧
    z.slp.sleepRejected = false ∧ z.slp.asleep = false ∧ z.slp.wtPhase = .off ∧ z.slp.wtCount = 0 ∧
    z.slp.lpClkFreqHz = 0 ∧ z.fault = { halted := false, code := 0, info := 0 } ∧ z.trace = []

/-! ### Invariants and whole-machine rules -/

/-- 10_state.md R11: every step keeps `clk_state` equal to `state_of(cur.source)`. -/
def Obligations.StepKeepsClockStateInv : Prop :=
  ∀ s t : State, ClockStateInv s → step s = .next t → ClockStateInv t

/-- 10_state.md R12, 20_memory.md R52, 60_exceptions.md R156: every step keeps the mailbox invariant: one op at a time, it is the
owner's, and none runs in HALT. -/
def Obligations.StepKeepsMailboxInv : Prop :=
  ∀ s t : State, MailboxInv s → step s = .next t → MailboxInv t

/-- 42_sleep.md R131, R139, R140: every step keeps the status bits exclusive and the timer to the sleeping block. -/
def Obligations.StepKeepsSleepBitsInv : Prop :=
  ∀ s t : State, SleepBitsInv s → step s = .next t → SleepBitsInv t

/-- 10_state.md R17 to R19, 41_pll.md R103, R106: every step keeps a disabled PLL unconfigured, the poll budget bounded, and the
current PLL frequency that of the PLL last calibrated. -/
def Obligations.StepKeepsCalibrationInv : Prop :=
  ∀ s t : State, CalibrationInv s → step s = .next t → CalibrationInv t

/-- The five invariants hold right after RESET; the last two on a chip whose description is well-formed. -/
def Obligations.InvariantsHoldAtReset : Prop :=
  ∀ cfg : Cfg, ClockStateInv (State.resetOf cfg) ∧ MailboxInv (State.resetOf cfg) ∧ SleepBitsInv (State.resetOf cfg) ∧
    (cfgOk cfg = true → CalibrationInv (State.resetOf cfg)) ∧ (CfgWellFormed cfg → BusInv (State.resetOf cfg))

/-- 00_scope.md R8, 20_memory.md R44, R51, R52: no step changes the chip description; the trace, and with it the list of the
block's bus accesses, only grows, one event at a time, and only by a micro-step of the running op; RESET alone empties it.
R45, R47: a `W` is a 4-byte write on the RegisterBus, a `B` a 1-byte write on the control bus, a poll a read on the bus that has
its input (log 16); a masked write changes the bits of its range alone (that a value too wide for the range loses its upper
bits is the model's choice, log 26), and a masked read gives those. R41: the RegisterBus places are the whole aligned 32-bit
words, every one of them and nothing else, so two accesses are to the same word or share no byte. -/
def Obligations.ChipIsFixedAndTraceGrows : Prop :=
  (∀ s t : State, step s = .next t → t.cfg = s.cfg ∧
    ((nextAction s = .reset ∧ t.trace = [] ∧ accesses t = []) ∨
      (t.trace = s.trace ∧ accesses t = accesses s) ∨
      ∃ answer e, nextAction s = .sequencer answer ∧ s.seq.busy = true ∧ s.fault.halted = false ∧
        t.trace = s.trace ++ [e] ∧ accesses t = accesses s ++ [eventAccess e])) ∧
  (∀ (f : RegField) (v : Word),
    eventAccess (.w f v) = .write (Config.regLocation f) v ∧ accessBytes (eventAccess (.w f v)) = 4) ∧
  (∀ (f : BusField) (v : Byte),
    eventAccess (.b f v) = .busWrite (Config.busLocation f) v ∧ accessBytes (eventAccess (.b f v)) = 1) ∧
  (∀ (i : StatusInput) (v : Word),
    (∃ loc, Config.pollLocation i = .reg loc ∧ eventAccess (.r i v) = .read loc v ∧
        accessBytes (eventAccess (.r i v)) = 4) ∨
      ∃ loc, Config.pollLocation i = .ctl loc ∧ eventAccess (.r i v) = .busRead loc (v.setWidth 8) ∧
        accessBytes (eventAccess (.r i v)) = 1) ∧
  (∀ a b : RegLocation, (regAddress a).toNat % 4 = 0 ∧
    (regAddress a ≠ regAddress b →
      (regAddress a).toNat + 4 ≤ (regAddress b).toNat ∨ (regAddress b).toNat + 4 ≤ (regAddress a).toNat)) ∧
  (∀ address : Word, address.toNat % 4 = 0 → ∃ loc, regAddress loc = address) ∧
  ∀ (w : Nat) (range : BitRange w) (old v : BitVec w),
    maskedWrite none old v = v ∧ maskedRead none old = old ∧
    ∀ i, i < w →
      (maskedWrite (some range) old v).getLsbD i =
        (if range.lo.val ≤ i ∧ i ≤ range.hi.val then v.getLsbD (i - range.lo.val) else old.getLsbD i) ∧
      (maskedRead (some range) old).getLsbD i =
        (decide (range.lo.val + i ≤ range.hi.val) && old.getLsbD (range.lo.val + i))
end

