-- ==== Sys2Proof/Laws/State.lean ====
section
/-! SUPPORT. One lemma per field per update of State, so that no proof unfolds a record update, and the reads of mailboxes and
PLL controllers after an update. -/

namespace Sys2Proof.Machine

/-! ### `setMbox` -/

@[simp] theorem setMbox_cfg (c : Core) (m : Mailbox) (s : State) : (setMbox c m s).cfg = s.cfg := rfl

@[simp] theorem setMbox_seq (c : Core) (m : Mailbox) (s : State) : (setMbox c m s).seq = s.seq := rfl

@[simp] theorem setMbox_clk (c : Core) (m : Mailbox) (s : State) : (setMbox c m s).clk = s.clk := rfl

@[simp] theorem setMbox_plls (c : Core) (m : Mailbox) (s : State) : (setMbox c m s).plls = s.plls := rfl

@[simp] theorem setMbox_curPllFreqMhz (c : Core) (m : Mailbox) (s : State) : (setMbox c m s).curPllFreqMhz = s.curPllFreqMhz := rfl

@[simp] theorem setMbox_lastCalPll (c : Core) (m : Mailbox) (s : State) : (setMbox c m s).lastCalPll = s.lastCalPll := rfl

@[simp] theorem setMbox_slp (c : Core) (m : Mailbox) (s : State) : (setMbox c m s).slp = s.slp := rfl

@[simp] theorem setMbox_fault (c : Core) (m : Mailbox) (s : State) : (setMbox c m s).fault = s.fault := rfl

@[simp] theorem setMbox_trace (c : Core) (m : Mailbox) (s : State) : (setMbox c m s).trace = s.trace := rfl

@[simp] theorem setMbox_env (c : Core) (m : Mailbox) (s : State) : (setMbox c m s).env = s.env := rfl

@[simp] theorem setMbox_pllAt (c : Core) (m : Mailbox) (s : State) (j : PllId) : pllAt (setMbox c m s) j = pllAt s j := rfl

/-! ### `setPll` -/

@[simp] theorem setPll_cfg (id : PllId) (p : Pll) (s : State) : (setPll id p s).cfg = s.cfg := rfl

@[simp] theorem setPll_mbox (id : PllId) (p : Pll) (s : State) : (setPll id p s).mbox = s.mbox := rfl

@[simp] theorem setPll_seq (id : PllId) (p : Pll) (s : State) : (setPll id p s).seq = s.seq := rfl

@[simp] theorem setPll_clk (id : PllId) (p : Pll) (s : State) : (setPll id p s).clk = s.clk := rfl

@[simp] theorem setPll_curPllFreqMhz (id : PllId) (p : Pll) (s : State) : (setPll id p s).curPllFreqMhz = s.curPllFreqMhz := rfl

@[simp] theorem setPll_lastCalPll (id : PllId) (p : Pll) (s : State) : (setPll id p s).lastCalPll = s.lastCalPll := rfl

@[simp] theorem setPll_slp (id : PllId) (p : Pll) (s : State) : (setPll id p s).slp = s.slp := rfl

@[simp] theorem setPll_fault (id : PllId) (p : Pll) (s : State) : (setPll id p s).fault = s.fault := rfl

@[simp] theorem setPll_trace (id : PllId) (p : Pll) (s : State) : (setPll id p s).trace = s.trace := rfl

@[simp] theorem setPll_env (id : PllId) (p : Pll) (s : State) : (setPll id p s).env = s.env := rfl

@[simp] theorem setPll_mboxAt (id : PllId) (p : Pll) (s : State) (d : Core) : mboxAt (setPll id p s) d = mboxAt s d := rfl

/-! ### `setClk` -/

@[simp] theorem setClk_cfg (k : ClockTree) (s : State) : (setClk k s).cfg = s.cfg := rfl

@[simp] theorem setClk_mbox (k : ClockTree) (s : State) : (setClk k s).mbox = s.mbox := rfl

@[simp] theorem setClk_seq (k : ClockTree) (s : State) : (setClk k s).seq = s.seq := rfl

@[simp] theorem setClk_clk (k : ClockTree) (s : State) : (setClk k s).clk = k := rfl

@[simp] theorem setClk_plls (k : ClockTree) (s : State) : (setClk k s).plls = s.plls := rfl

@[simp] theorem setClk_curPllFreqMhz (k : ClockTree) (s : State) : (setClk k s).curPllFreqMhz = s.curPllFreqMhz := rfl

@[simp] theorem setClk_lastCalPll (k : ClockTree) (s : State) : (setClk k s).lastCalPll = s.lastCalPll := rfl

@[simp] theorem setClk_slp (k : ClockTree) (s : State) : (setClk k s).slp = s.slp := rfl

@[simp] theorem setClk_fault (k : ClockTree) (s : State) : (setClk k s).fault = s.fault := rfl

@[simp] theorem setClk_trace (k : ClockTree) (s : State) : (setClk k s).trace = s.trace := rfl

@[simp] theorem setClk_env (k : ClockTree) (s : State) : (setClk k s).env = s.env := rfl

@[simp] theorem setClk_mboxAt (k : ClockTree) (s : State) (d : Core) : mboxAt (setClk k s) d = mboxAt s d := rfl

@[simp] theorem setClk_pllAt (k : ClockTree) (s : State) (j : PllId) : pllAt (setClk k s) j = pllAt s j := rfl

/-! ### `setSlp` -/

@[simp] theorem setSlp_cfg (z : SleepSeq) (s : State) : (setSlp z s).cfg = s.cfg := rfl

@[simp] theorem setSlp_mbox (z : SleepSeq) (s : State) : (setSlp z s).mbox = s.mbox := rfl

@[simp] theorem setSlp_seq (z : SleepSeq) (s : State) : (setSlp z s).seq = s.seq := rfl

@[simp] theorem setSlp_clk (z : SleepSeq) (s : State) : (setSlp z s).clk = s.clk := rfl

@[simp] theorem setSlp_plls (z : SleepSeq) (s : State) : (setSlp z s).plls = s.plls := rfl

@[simp] theorem setSlp_curPllFreqMhz (z : SleepSeq) (s : State) : (setSlp z s).curPllFreqMhz = s.curPllFreqMhz := rfl

@[simp] theorem setSlp_lastCalPll (z : SleepSeq) (s : State) : (setSlp z s).lastCalPll = s.lastCalPll := rfl

@[simp] theorem setSlp_slp (z : SleepSeq) (s : State) : (setSlp z s).slp = z := rfl

@[simp] theorem setSlp_fault (z : SleepSeq) (s : State) : (setSlp z s).fault = s.fault := rfl

@[simp] theorem setSlp_trace (z : SleepSeq) (s : State) : (setSlp z s).trace = s.trace := rfl

@[simp] theorem setSlp_env (z : SleepSeq) (s : State) : (setSlp z s).env = s.env := rfl

@[simp] theorem setSlp_mboxAt (z : SleepSeq) (s : State) (d : Core) : mboxAt (setSlp z s) d = mboxAt s d := rfl

@[simp] theorem setSlp_pllAt (z : SleepSeq) (s : State) (j : PllId) : pllAt (setSlp z s) j = pllAt s j := rfl

/-! ### `setSeq` -/

@[simp] theorem setSeq_cfg (q : Sequencer) (s : State) : (setSeq q s).cfg = s.cfg := rfl

@[simp] theorem setSeq_mbox (q : Sequencer) (s : State) : (setSeq q s).mbox = s.mbox := rfl

@[simp] theorem setSeq_seq (q : Sequencer) (s : State) : (setSeq q s).seq = q := rfl

@[simp] theorem setSeq_clk (q : Sequencer) (s : State) : (setSeq q s).clk = s.clk := rfl

@[simp] theorem setSeq_plls (q : Sequencer) (s : State) : (setSeq q s).plls = s.plls := rfl

@[simp] theorem setSeq_curPllFreqMhz (q : Sequencer) (s : State) : (setSeq q s).curPllFreqMhz = s.curPllFreqMhz := rfl

@[simp] theorem setSeq_lastCalPll (q : Sequencer) (s : State) : (setSeq q s).lastCalPll = s.lastCalPll := rfl

@[simp] theorem setSeq_slp (q : Sequencer) (s : State) : (setSeq q s).slp = s.slp := rfl

@[simp] theorem setSeq_fault (q : Sequencer) (s : State) : (setSeq q s).fault = s.fault := rfl

@[simp] theorem setSeq_trace (q : Sequencer) (s : State) : (setSeq q s).trace = s.trace := rfl

@[simp] theorem setSeq_env (q : Sequencer) (s : State) : (setSeq q s).env = s.env := rfl

@[simp] theorem setSeq_mboxAt (q : Sequencer) (s : State) (d : Core) : mboxAt (setSeq q s) d = mboxAt s d := rfl

@[simp] theorem setSeq_pllAt (q : Sequencer) (s : State) (j : PllId) : pllAt (setSeq q s) j = pllAt s j := rfl

/-! ### `setEnv` -/

@[simp] theorem setEnv_cfg (e : Env) (s : State) : (setEnv e s).cfg = s.cfg := rfl

@[simp] theorem setEnv_mbox (e : Env) (s : State) : (setEnv e s).mbox = s.mbox := rfl

@[simp] theorem setEnv_seq (e : Env) (s : State) : (setEnv e s).seq = s.seq := rfl

@[simp] theorem setEnv_clk (e : Env) (s : State) : (setEnv e s).clk = s.clk := rfl

@[simp] theorem setEnv_plls (e : Env) (s : State) : (setEnv e s).plls = s.plls := rfl

@[simp] theorem setEnv_curPllFreqMhz (e : Env) (s : State) : (setEnv e s).curPllFreqMhz = s.curPllFreqMhz := rfl

@[simp] theorem setEnv_lastCalPll (e : Env) (s : State) : (setEnv e s).lastCalPll = s.lastCalPll := rfl

@[simp] theorem setEnv_slp (e : Env) (s : State) : (setEnv e s).slp = s.slp := rfl

@[simp] theorem setEnv_fault (e : Env) (s : State) : (setEnv e s).fault = s.fault := rfl

@[simp] theorem setEnv_trace (e : Env) (s : State) : (setEnv e s).trace = s.trace := rfl

@[simp] theorem setEnv_env (e : Env) (s : State) : (setEnv e s).env = e := rfl

@[simp] theorem setEnv_mboxAt (e : Env) (s : State) (d : Core) : mboxAt (setEnv e s) d = mboxAt s d := rfl

@[simp] theorem setEnv_pllAt (e : Env) (s : State) (j : PllId) : pllAt (setEnv e s) j = pllAt s j := rfl

/-! ### `setCurPll` -/

@[simp] theorem setCurPll_cfg (f : Word) (id : PllId) (s : State) : (setCurPll f id s).cfg = s.cfg := rfl

@[simp] theorem setCurPll_mbox (f : Word) (id : PllId) (s : State) : (setCurPll f id s).mbox = s.mbox := rfl

@[simp] theorem setCurPll_seq (f : Word) (id : PllId) (s : State) : (setCurPll f id s).seq = s.seq := rfl

@[simp] theorem setCurPll_clk (f : Word) (id : PllId) (s : State) : (setCurPll f id s).clk = s.clk := rfl

@[simp] theorem setCurPll_plls (f : Word) (id : PllId) (s : State) : (setCurPll f id s).plls = s.plls := rfl

@[simp] theorem setCurPll_curPllFreqMhz (f : Word) (id : PllId) (s : State) : (setCurPll f id s).curPllFreqMhz = f := rfl

@[simp] theorem setCurPll_lastCalPll (f : Word) (id : PllId) (s : State) : (setCurPll f id s).lastCalPll = id := rfl

@[simp] theorem setCurPll_slp (f : Word) (id : PllId) (s : State) : (setCurPll f id s).slp = s.slp := rfl

@[simp] theorem setCurPll_fault (f : Word) (id : PllId) (s : State) : (setCurPll f id s).fault = s.fault := rfl

@[simp] theorem setCurPll_trace (f : Word) (id : PllId) (s : State) : (setCurPll f id s).trace = s.trace := rfl

@[simp] theorem setCurPll_env (f : Word) (id : PllId) (s : State) : (setCurPll f id s).env = s.env := rfl

@[simp] theorem setCurPll_mboxAt (f : Word) (id : PllId) (s : State) (d : Core) : mboxAt (setCurPll f id s) d = mboxAt s d := rfl

@[simp] theorem setCurPll_pllAt (f : Word) (id : PllId) (s : State) (j : PllId) : pllAt (setCurPll f id s) j = pllAt s j := rfl

/-! ### `emit` -/

@[simp] theorem emit_cfg (e : Event) (s : State) : (emit e s).cfg = s.cfg := rfl

@[simp] theorem emit_mbox (e : Event) (s : State) : (emit e s).mbox = s.mbox := rfl

@[simp] theorem emit_seq (e : Event) (s : State) : (emit e s).seq = s.seq := rfl

@[simp] theorem emit_clk (e : Event) (s : State) : (emit e s).clk = s.clk := rfl

@[simp] theorem emit_plls (e : Event) (s : State) : (emit e s).plls = s.plls := rfl

@[simp] theorem emit_curPllFreqMhz (e : Event) (s : State) : (emit e s).curPllFreqMhz = s.curPllFreqMhz := rfl

@[simp] theorem emit_lastCalPll (e : Event) (s : State) : (emit e s).lastCalPll = s.lastCalPll := rfl

@[simp] theorem emit_slp (e : Event) (s : State) : (emit e s).slp = s.slp := rfl

@[simp] theorem emit_fault (e : Event) (s : State) : (emit e s).fault = s.fault := rfl

@[simp] theorem emit_trace (e : Event) (s : State) : (emit e s).trace = s.trace ++ [e] := rfl

@[simp] theorem emit_env (e : Event) (s : State) : (emit e s).env = s.env := rfl

@[simp] theorem emit_mboxAt (e : Event) (s : State) (d : Core) : mboxAt (emit e s) d = mboxAt s d := rfl

@[simp] theorem emit_pllAt (e : Event) (s : State) (j : PllId) : pllAt (emit e s) j = pllAt s j := rfl

/-! ### Reads after updates -/

@[simp] theorem mboxAt_setMbox_self (c : Core) (m : Mailbox) (s : State) : mboxAt (setMbox c m s) c = m := by
  simp [mboxAt, setMbox]

theorem mboxAt_setMbox_ne {c d : Core} (h : d ≠ c) (m : Mailbox) (s : State) :
    mboxAt (setMbox c m s) d = mboxAt s d := by
  have hv : c.val ≠ d.val := fun e => h (Fin.ext e.symm)
  simp [mboxAt, setMbox, Vector.getElem_set_ne _ _ hv]

theorem mboxAt_setMbox (c d : Core) (m : Mailbox) (s : State) :
    mboxAt (setMbox c m s) d = if d = c then m else mboxAt s d := by
  by_cases h : d = c
  · subst h; simp
  · simp [h, mboxAt_setMbox_ne h]

theorem pllAt_setPll_self {id : PllId} (h : id.toNat < 8) (p : Pll) (s : State) : pllAt (setPll id p s) id = p := by
  simp [pllAt, setPll, h]

theorem pllAt_setPll_ne {id j : PllId} (h : j ≠ id) (p : Pll) (s : State) : pllAt (setPll id p s) j = pllAt s j := by
  have hv : id.toNat ≠ j.toNat := fun e => h (BitVec.eq_of_toNat_eq e.symm)
  simp [pllAt, setPll, hv]

/-- A PllId beyond the eight the model holds reads as after RESET, whatever is written to it. -/
theorem pllAt_beyond {id : PllId} (h : ¬id.toNat < 8) (s : State) : pllAt s id = Pll.reset := by
  simp [pllAt, h]

theorem pllAt_setPll (id j : PllId) (p : Pll) (s : State) :
    pllAt (setPll id p s) j = if j = id ∧ id.toNat < 8 then p else pllAt s j := by
  by_cases h : j = id
  · subst h
    by_cases hb : j.toNat < 8
    · simp [hb, pllAt_setPll_self hb]
    · simp [hb, pllAt_beyond hb]
  · simp [h, pllAt_setPll_ne h]

/-- Any mailbox after RESET. -/
@[simp] theorem mboxAt_resetOf (cfg : Cfg) (c : Core) : mboxAt (State.resetOf cfg) c = Mailbox.reset := by
  simp [mboxAt, State.resetOf]

/-- Any PLL controller after RESET. -/
@[simp] theorem pllAt_resetOf (cfg : Cfg) (id : PllId) : pllAt (State.resetOf cfg) id = Pll.reset := by
  by_cases h : id.toNat < 8 <;> simp [pllAt, State.resetOf, h]

end Sys2Proof.Machine
end

