-- ==== Sys2Proof/Laws/Ops.lean ====
section
/-! SUPPORT. For each shared operation of Machine/Ops.lean, what it can do, said once: what the end of an op, a refusal, the end
of a micro-step and a fatal fault leave, and what they leave alone. -/

namespace Sys2Proof.Machine

/-! ### `setRes` -/

@[simp] theorem setRes_cfg (c : Core) (i : Fin 5) (v : Word) (s : State) : (setRes c i v s).cfg = s.cfg := rfl

@[simp] theorem setRes_clk (c : Core) (i : Fin 5) (v : Word) (s : State) : (setRes c i v s).clk = s.clk := rfl

@[simp] theorem setRes_plls (c : Core) (i : Fin 5) (v : Word) (s : State) : (setRes c i v s).plls = s.plls := rfl

@[simp] theorem setRes_curPllFreqMhz (c : Core) (i : Fin 5) (v : Word) (s : State) : (setRes c i v s).curPllFreqMhz = s.curPllFreqMhz := rfl

@[simp] theorem setRes_lastCalPll (c : Core) (i : Fin 5) (v : Word) (s : State) : (setRes c i v s).lastCalPll = s.lastCalPll := rfl

@[simp] theorem setRes_slp (c : Core) (i : Fin 5) (v : Word) (s : State) : (setRes c i v s).slp = s.slp := rfl

@[simp] theorem setRes_fault (c : Core) (i : Fin 5) (v : Word) (s : State) : (setRes c i v s).fault = s.fault := rfl

@[simp] theorem setRes_trace (c : Core) (i : Fin 5) (v : Word) (s : State) : (setRes c i v s).trace = s.trace := rfl

@[simp] theorem setRes_env (c : Core) (i : Fin 5) (v : Word) (s : State) : (setRes c i v s).env = s.env := rfl

@[simp] theorem setRes_seq (c : Core) (i : Fin 5) (v : Word) (s : State) : (setRes c i v s).seq = s.seq := rfl

@[simp] theorem setRes_pllAt (c : Core) (i : Fin 5) (v : Word) (s : State) (j : PllId) : pllAt (setRes c i v s) j = pllAt s j := by
  simp [pllAt]

/-! ### `setResConfig` -/

@[simp] theorem setResConfig_cfg (c : Core) (k : ClockConfig) (s : State) : (setResConfig c k s).cfg = s.cfg := rfl

@[simp] theorem setResConfig_clk (c : Core) (k : ClockConfig) (s : State) : (setResConfig c k s).clk = s.clk := rfl

@[simp] theorem setResConfig_plls (c : Core) (k : ClockConfig) (s : State) : (setResConfig c k s).plls = s.plls := rfl

@[simp] theorem setResConfig_curPllFreqMhz (c : Core) (k : ClockConfig) (s : State) : (setResConfig c k s).curPllFreqMhz = s.curPllFreqMhz := rfl

@[simp] theorem setResConfig_lastCalPll (c : Core) (k : ClockConfig) (s : State) : (setResConfig c k s).lastCalPll = s.lastCalPll := rfl

@[simp] theorem setResConfig_slp (c : Core) (k : ClockConfig) (s : State) : (setResConfig c k s).slp = s.slp := rfl

@[simp] theorem setResConfig_fault (c : Core) (k : ClockConfig) (s : State) : (setResConfig c k s).fault = s.fault := rfl

@[simp] theorem setResConfig_trace (c : Core) (k : ClockConfig) (s : State) : (setResConfig c k s).trace = s.trace := rfl

@[simp] theorem setResConfig_env (c : Core) (k : ClockConfig) (s : State) : (setResConfig c k s).env = s.env := rfl

@[simp] theorem setResConfig_seq (c : Core) (k : ClockConfig) (s : State) : (setResConfig c k s).seq = s.seq := rfl

@[simp] theorem setResConfig_pllAt (c : Core) (k : ClockConfig) (s : State) (j : PllId) : pllAt (setResConfig c k s) j = pllAt s j := by
  simp [pllAt]

/-! ### `setResMode` -/

@[simp] theorem setResMode_cfg (c : Core) (p : ModeParams) (s : State) : (setResMode c p s).cfg = s.cfg := rfl

@[simp] theorem setResMode_clk (c : Core) (p : ModeParams) (s : State) : (setResMode c p s).clk = s.clk := rfl

@[simp] theorem setResMode_plls (c : Core) (p : ModeParams) (s : State) : (setResMode c p s).plls = s.plls := rfl

@[simp] theorem setResMode_curPllFreqMhz (c : Core) (p : ModeParams) (s : State) : (setResMode c p s).curPllFreqMhz = s.curPllFreqMhz := rfl

@[simp] theorem setResMode_lastCalPll (c : Core) (p : ModeParams) (s : State) : (setResMode c p s).lastCalPll = s.lastCalPll := rfl

@[simp] theorem setResMode_slp (c : Core) (p : ModeParams) (s : State) : (setResMode c p s).slp = s.slp := rfl

@[simp] theorem setResMode_fault (c : Core) (p : ModeParams) (s : State) : (setResMode c p s).fault = s.fault := rfl

@[simp] theorem setResMode_trace (c : Core) (p : ModeParams) (s : State) : (setResMode c p s).trace = s.trace := rfl

@[simp] theorem setResMode_env (c : Core) (p : ModeParams) (s : State) : (setResMode c p s).env = s.env := rfl

@[simp] theorem setResMode_seq (c : Core) (p : ModeParams) (s : State) : (setResMode c p s).seq = s.seq := rfl

@[simp] theorem setResMode_pllAt (c : Core) (p : ModeParams) (s : State) (j : PllId) : pllAt (setResMode c p s) j = pllAt s j := by
  simp [pllAt]

/-! ### `endOp` -/

@[simp] theorem endOp_cfg (c : Core) (k : StatusCode) (s : State) : (endOp c k s).cfg = s.cfg := rfl

@[simp] theorem endOp_clk (c : Core) (k : StatusCode) (s : State) : (endOp c k s).clk = s.clk := rfl

@[simp] theorem endOp_plls (c : Core) (k : StatusCode) (s : State) : (endOp c k s).plls = s.plls := rfl

@[simp] theorem endOp_curPllFreqMhz (c : Core) (k : StatusCode) (s : State) : (endOp c k s).curPllFreqMhz = s.curPllFreqMhz := rfl

@[simp] theorem endOp_lastCalPll (c : Core) (k : StatusCode) (s : State) : (endOp c k s).lastCalPll = s.lastCalPll := rfl

@[simp] theorem endOp_slp (c : Core) (k : StatusCode) (s : State) : (endOp c k s).slp = s.slp := rfl

@[simp] theorem endOp_fault (c : Core) (k : StatusCode) (s : State) : (endOp c k s).fault = s.fault := rfl

@[simp] theorem endOp_trace (c : Core) (k : StatusCode) (s : State) : (endOp c k s).trace = s.trace := rfl

@[simp] theorem endOp_env (c : Core) (k : StatusCode) (s : State) : (endOp c k s).env = s.env := rfl

@[simp] theorem endOp_seq (c : Core) (k : StatusCode) (s : State) : (endOp c k s).seq = s.seq := rfl

@[simp] theorem endOp_pllAt (c : Core) (k : StatusCode) (s : State) (j : PllId) : pllAt (endOp c k s) j = pllAt s j := by
  simp [pllAt]

/-! ### `release` -/

@[simp] theorem release_cfg (s : State) : (release s).cfg = s.cfg := rfl

@[simp] theorem release_clk (s : State) : (release s).clk = s.clk := rfl

@[simp] theorem release_plls (s : State) : (release s).plls = s.plls := rfl

@[simp] theorem release_curPllFreqMhz (s : State) : (release s).curPllFreqMhz = s.curPllFreqMhz := rfl

@[simp] theorem release_lastCalPll (s : State) : (release s).lastCalPll = s.lastCalPll := rfl

@[simp] theorem release_slp (s : State) : (release s).slp = s.slp := rfl

@[simp] theorem release_fault (s : State) : (release s).fault = s.fault := rfl

@[simp] theorem release_trace (s : State) : (release s).trace = s.trace := rfl

@[simp] theorem release_env (s : State) : (release s).env = s.env := rfl

@[simp] theorem release_pllAt (s : State) (j : PllId) : pllAt (release s) j = pllAt s j := by
  simp [pllAt]

/-! ### `setResSleep` -/

@[simp] theorem setResSleep_cfg (c : Core) (s : State) : (setResSleep c s).cfg = s.cfg := by
  unfold setResSleep; split <;> rfl

@[simp] theorem setResSleep_clk (c : Core) (s : State) : (setResSleep c s).clk = s.clk := by
  unfold setResSleep; split <;> rfl

@[simp] theorem setResSleep_plls (c : Core) (s : State) : (setResSleep c s).plls = s.plls := by
  unfold setResSleep; split <;> rfl

@[simp] theorem setResSleep_curPllFreqMhz (c : Core) (s : State) : (setResSleep c s).curPllFreqMhz = s.curPllFreqMhz := by
  unfold setResSleep; split <;> rfl

@[simp] theorem setResSleep_lastCalPll (c : Core) (s : State) : (setResSleep c s).lastCalPll = s.lastCalPll := by
  unfold setResSleep; split <;> rfl

@[simp] theorem setResSleep_slp (c : Core) (s : State) : (setResSleep c s).slp = s.slp := by
  unfold setResSleep; split <;> rfl

@[simp] theorem setResSleep_fault (c : Core) (s : State) : (setResSleep c s).fault = s.fault := by
  unfold setResSleep; split <;> rfl

@[simp] theorem setResSleep_trace (c : Core) (s : State) : (setResSleep c s).trace = s.trace := by
  unfold setResSleep; split <;> rfl

@[simp] theorem setResSleep_env (c : Core) (s : State) : (setResSleep c s).env = s.env := by
  unfold setResSleep; split <;> rfl

@[simp] theorem setResSleep_seq (c : Core) (s : State) : (setResSleep c s).seq = s.seq := by
  unfold setResSleep; split <;> rfl

@[simp] theorem setResSleep_pllAt (c : Core) (s : State) (j : PllId) : pllAt (setResSleep c s) j = pllAt s j := by
  simp [pllAt]

/-! ### `setResults` -/

@[simp] theorem setResults_cfg (c : Core) (e : Ending) (s : State) : (setResults c e s).cfg = s.cfg := by
  cases e <;> simp [setResults]

@[simp] theorem setResults_clk (c : Core) (e : Ending) (s : State) : (setResults c e s).clk = s.clk := by
  cases e <;> simp [setResults]

@[simp] theorem setResults_plls (c : Core) (e : Ending) (s : State) : (setResults c e s).plls = s.plls := by
  cases e <;> simp [setResults]

@[simp] theorem setResults_curPllFreqMhz (c : Core) (e : Ending) (s : State) : (setResults c e s).curPllFreqMhz = s.curPllFreqMhz := by
  cases e <;> simp [setResults]

@[simp] theorem setResults_lastCalPll (c : Core) (e : Ending) (s : State) : (setResults c e s).lastCalPll = s.lastCalPll := by
  cases e <;> simp [setResults]

@[simp] theorem setResults_slp (c : Core) (e : Ending) (s : State) : (setResults c e s).slp = s.slp := by
  cases e <;> simp [setResults]

@[simp] theorem setResults_fault (c : Core) (e : Ending) (s : State) : (setResults c e s).fault = s.fault := by
  cases e <;> simp [setResults]

@[simp] theorem setResults_trace (c : Core) (e : Ending) (s : State) : (setResults c e s).trace = s.trace := by
  cases e <;> simp [setResults]

@[simp] theorem setResults_env (c : Core) (e : Ending) (s : State) : (setResults c e s).env = s.env := by
  cases e <;> simp [setResults]

@[simp] theorem setResults_seq (c : Core) (e : Ending) (s : State) : (setResults c e s).seq = s.seq := by
  cases e <;> simp [setResults]

@[simp] theorem setResults_pllAt (c : Core) (e : Ending) (s : State) (j : PllId) : pllAt (setResults c e s) j = pllAt s j := by
  simp [pllAt]

/-! ### `finishOp` -/

@[simp] theorem finishOp_cfg (e : Ending) (s : State) : (finishOp e s).cfg = s.cfg := by
  simp [finishOp]

@[simp] theorem finishOp_clk (e : Ending) (s : State) : (finishOp e s).clk = s.clk := by
  simp [finishOp]

@[simp] theorem finishOp_plls (e : Ending) (s : State) : (finishOp e s).plls = s.plls := by
  simp [finishOp]

@[simp] theorem finishOp_curPllFreqMhz (e : Ending) (s : State) : (finishOp e s).curPllFreqMhz = s.curPllFreqMhz := by
  simp [finishOp]

@[simp] theorem finishOp_lastCalPll (e : Ending) (s : State) : (finishOp e s).lastCalPll = s.lastCalPll := by
  simp [finishOp]

@[simp] theorem finishOp_slp (e : Ending) (s : State) : (finishOp e s).slp = s.slp := by
  simp [finishOp]

@[simp] theorem finishOp_fault (e : Ending) (s : State) : (finishOp e s).fault = s.fault := by
  simp [finishOp]

@[simp] theorem finishOp_trace (e : Ending) (s : State) : (finishOp e s).trace = s.trace := by
  simp [finishOp]

@[simp] theorem finishOp_env (e : Ending) (s : State) : (finishOp e s).env = s.env := by
  simp [finishOp]

@[simp] theorem finishOp_pllAt (e : Ending) (s : State) (j : PllId) : pllAt (finishOp e s) j = pllAt s j := by
  simp [pllAt]

/-! ### `setProgrammed` -/

@[simp] theorem setProgrammed_cfg (b : Bool) (s : State) : (setProgrammed b s).cfg = s.cfg := rfl

@[simp] theorem setProgrammed_clk (b : Bool) (s : State) : (setProgrammed b s).clk = s.clk := rfl

@[simp] theorem setProgrammed_plls (b : Bool) (s : State) : (setProgrammed b s).plls = s.plls := rfl

@[simp] theorem setProgrammed_curPllFreqMhz (b : Bool) (s : State) : (setProgrammed b s).curPllFreqMhz = s.curPllFreqMhz := rfl

@[simp] theorem setProgrammed_lastCalPll (b : Bool) (s : State) : (setProgrammed b s).lastCalPll = s.lastCalPll := rfl

@[simp] theorem setProgrammed_fault (b : Bool) (s : State) : (setProgrammed b s).fault = s.fault := rfl

@[simp] theorem setProgrammed_trace (b : Bool) (s : State) : (setProgrammed b s).trace = s.trace := rfl

@[simp] theorem setProgrammed_env (b : Bool) (s : State) : (setProgrammed b s).env = s.env := rfl

@[simp] theorem setProgrammed_seq (b : Bool) (s : State) : (setProgrammed b s).seq = s.seq := rfl

@[simp] theorem setProgrammed_pllAt (b : Bool) (s : State) (j : PllId) : pllAt (setProgrammed b s) j = pllAt s j := by
  simp [pllAt]

/-! ### `advance` -/

@[simp] theorem advance_cfg (script : List Micro) (s : State) : (advance script s).cfg = s.cfg := by
  induction script, s using advance.induct <;> simp_all [advance]

@[simp] theorem advance_clk (script : List Micro) (s : State) : (advance script s).clk = s.clk := by
  induction script, s using advance.induct <;> simp_all [advance]

@[simp] theorem advance_plls (script : List Micro) (s : State) : (advance script s).plls = s.plls := by
  induction script, s using advance.induct <;> simp_all [advance]

@[simp] theorem advance_curPllFreqMhz (script : List Micro) (s : State) : (advance script s).curPllFreqMhz = s.curPllFreqMhz := by
  induction script, s using advance.induct <;> simp_all [advance]

@[simp] theorem advance_lastCalPll (script : List Micro) (s : State) : (advance script s).lastCalPll = s.lastCalPll := by
  induction script, s using advance.induct <;> simp_all [advance]

@[simp] theorem advance_fault (script : List Micro) (s : State) : (advance script s).fault = s.fault := by
  induction script, s using advance.induct <;> simp_all [advance]

@[simp] theorem advance_trace (script : List Micro) (s : State) : (advance script s).trace = s.trace := by
  induction script, s using advance.induct <;> simp_all [advance]

@[simp] theorem advance_env (script : List Micro) (s : State) : (advance script s).env = s.env := by
  induction script, s using advance.induct <;> simp_all [advance]

@[simp] theorem advance_pllAt (script : List Micro) (s : State) (j : PllId) : pllAt (advance script s) j = pllAt s j := by
  simp [pllAt]

/-! ### `abandonOther` -/

@[simp] theorem abandonOther_cfg (c : Core) (s : State) : (abandonOther c s).cfg = s.cfg := by
  unfold abandonOther; split <;> simp

@[simp] theorem abandonOther_clk (c : Core) (s : State) : (abandonOther c s).clk = s.clk := by
  unfold abandonOther; split <;> simp

@[simp] theorem abandonOther_plls (c : Core) (s : State) : (abandonOther c s).plls = s.plls := by
  unfold abandonOther; split <;> simp

@[simp] theorem abandonOther_curPllFreqMhz (c : Core) (s : State) : (abandonOther c s).curPllFreqMhz = s.curPllFreqMhz := by
  unfold abandonOther; split <;> simp

@[simp] theorem abandonOther_lastCalPll (c : Core) (s : State) : (abandonOther c s).lastCalPll = s.lastCalPll := by
  unfold abandonOther; split <;> simp

@[simp] theorem abandonOther_slp (c : Core) (s : State) : (abandonOther c s).slp = s.slp := by
  unfold abandonOther; split <;> simp

@[simp] theorem abandonOther_fault (c : Core) (s : State) : (abandonOther c s).fault = s.fault := by
  unfold abandonOther; split <;> simp

@[simp] theorem abandonOther_trace (c : Core) (s : State) : (abandonOther c s).trace = s.trace := by
  unfold abandonOther; split <;> simp

@[simp] theorem abandonOther_env (c : Core) (s : State) : (abandonOther c s).env = s.env := by
  unfold abandonOther; split <;> simp

@[simp] theorem abandonOther_pllAt (c : Core) (s : State) (j : PllId) : pllAt (abandonOther c s) j = pllAt s j := by
  simp [pllAt]

/-! ### `discardParams` -/

@[simp] theorem discardParams_cfg (s : State) : (discardParams s).cfg = s.cfg := by
  unfold discardParams; split <;> simp

@[simp] theorem discardParams_clk (s : State) : (discardParams s).clk = s.clk := by
  unfold discardParams; split <;> simp

@[simp] theorem discardParams_plls (s : State) : (discardParams s).plls = s.plls := by
  unfold discardParams; split <;> simp

@[simp] theorem discardParams_curPllFreqMhz (s : State) : (discardParams s).curPllFreqMhz = s.curPllFreqMhz := by
  unfold discardParams; split <;> simp

@[simp] theorem discardParams_lastCalPll (s : State) : (discardParams s).lastCalPll = s.lastCalPll := by
  unfold discardParams; split <;> simp

@[simp] theorem discardParams_fault (s : State) : (discardParams s).fault = s.fault := by
  unfold discardParams; split <;> simp

@[simp] theorem discardParams_trace (s : State) : (discardParams s).trace = s.trace := by
  unfold discardParams; split <;> simp

@[simp] theorem discardParams_env (s : State) : (discardParams s).env = s.env := by
  unfold discardParams; split <;> simp

@[simp] theorem discardParams_seq (s : State) : (discardParams s).seq = s.seq := by
  unfold discardParams; split <;> simp

@[simp] theorem discardParams_pllAt (s : State) (j : PllId) : pllAt (discardParams s) j = pllAt s j := by
  simp [pllAt]

/-! ### `recordFault` -/

@[simp] theorem recordFault_cfg (k : StatusCode) (info : BitVec 16) (s : State) : (recordFault k info s).cfg = s.cfg := by
  unfold recordFault; split <;> rfl

@[simp] theorem recordFault_clk (k : StatusCode) (info : BitVec 16) (s : State) : (recordFault k info s).clk = s.clk := by
  unfold recordFault; split <;> rfl

@[simp] theorem recordFault_plls (k : StatusCode) (info : BitVec 16) (s : State) : (recordFault k info s).plls = s.plls := by
  unfold recordFault; split <;> rfl

@[simp] theorem recordFault_curPllFreqMhz (k : StatusCode) (info : BitVec 16) (s : State) : (recordFault k info s).curPllFreqMhz = s.curPllFreqMhz := by
  unfold recordFault; split <;> rfl

@[simp] theorem recordFault_lastCalPll (k : StatusCode) (info : BitVec 16) (s : State) : (recordFault k info s).lastCalPll = s.lastCalPll := by
  unfold recordFault; split <;> rfl

@[simp] theorem recordFault_slp (k : StatusCode) (info : BitVec 16) (s : State) : (recordFault k info s).slp = s.slp := by
  unfold recordFault; split <;> rfl

@[simp] theorem recordFault_trace (k : StatusCode) (info : BitVec 16) (s : State) : (recordFault k info s).trace = s.trace := by
  unfold recordFault; split <;> rfl

@[simp] theorem recordFault_env (k : StatusCode) (info : BitVec 16) (s : State) : (recordFault k info s).env = s.env := by
  unfold recordFault; split <;> rfl

@[simp] theorem recordFault_seq (k : StatusCode) (info : BitVec 16) (s : State) : (recordFault k info s).seq = s.seq := by
  unfold recordFault; split <;> rfl

@[simp] theorem recordFault_pllAt (k : StatusCode) (info : BitVec 16) (s : State) (j : PllId) : pllAt (recordFault k info s) j = pllAt s j := by
  simp [pllAt]

/-! ### `raiseFatal` -/

@[simp] theorem raiseFatal_cfg (c : Core) (q : Bool) (k : StatusCode) (info : BitVec 16) (s : State) : (raiseFatal c q k info s).cfg = s.cfg := by
  cases q <;> simp [raiseFatal]

@[simp] theorem raiseFatal_clk (c : Core) (q : Bool) (k : StatusCode) (info : BitVec 16) (s : State) : (raiseFatal c q k info s).clk = s.clk := by
  cases q <;> simp [raiseFatal]

@[simp] theorem raiseFatal_plls (c : Core) (q : Bool) (k : StatusCode) (info : BitVec 16) (s : State) : (raiseFatal c q k info s).plls = s.plls := by
  cases q <;> simp [raiseFatal]

@[simp] theorem raiseFatal_curPllFreqMhz (c : Core) (q : Bool) (k : StatusCode) (info : BitVec 16) (s : State) : (raiseFatal c q k info s).curPllFreqMhz = s.curPllFreqMhz := by
  cases q <;> simp [raiseFatal]

@[simp] theorem raiseFatal_lastCalPll (c : Core) (q : Bool) (k : StatusCode) (info : BitVec 16) (s : State) : (raiseFatal c q k info s).lastCalPll = s.lastCalPll := by
  cases q <;> simp [raiseFatal]

@[simp] theorem raiseFatal_slp (c : Core) (q : Bool) (k : StatusCode) (info : BitVec 16) (s : State) : (raiseFatal c q k info s).slp = s.slp := by
  cases q <;> simp [raiseFatal]

@[simp] theorem raiseFatal_trace (c : Core) (q : Bool) (k : StatusCode) (info : BitVec 16) (s : State) : (raiseFatal c q k info s).trace = s.trace := by
  cases q <;> simp [raiseFatal]

@[simp] theorem raiseFatal_env (c : Core) (q : Bool) (k : StatusCode) (info : BitVec 16) (s : State) : (raiseFatal c q k info s).env = s.env := by
  cases q <;> simp [raiseFatal]

@[simp] theorem raiseFatal_pllAt (c : Core) (q : Bool) (k : StatusCode) (info : BitVec 16) (s : State) (j : PllId) : pllAt (raiseFatal c q k info s) j = pllAt s j := by
  simp [pllAt]

/-! ### `start` -/

@[simp] theorem start_cfg (script : List Micro) (s : State) : (start script s).cfg = s.cfg := by
  simp [start]

@[simp] theorem start_clk (script : List Micro) (s : State) : (start script s).clk = s.clk := by
  simp [start]

@[simp] theorem start_plls (script : List Micro) (s : State) : (start script s).plls = s.plls := by
  simp [start]

@[simp] theorem start_curPllFreqMhz (script : List Micro) (s : State) : (start script s).curPllFreqMhz = s.curPllFreqMhz := by
  simp [start]

@[simp] theorem start_lastCalPll (script : List Micro) (s : State) : (start script s).lastCalPll = s.lastCalPll := by
  simp [start]

@[simp] theorem start_fault (script : List Micro) (s : State) : (start script s).fault = s.fault := by
  simp [start]

@[simp] theorem start_trace (script : List Micro) (s : State) : (start script s).trace = s.trace := by
  simp [start]

@[simp] theorem start_env (script : List Micro) (s : State) : (start script s).env = s.env := by
  simp [start]

@[simp] theorem start_pllAt (script : List Micro) (s : State) (j : PllId) : pllAt (start script s) j = pllAt s j := by
  simp [pllAt]

/-! ### Mailboxes after the end of an op -/

theorem mboxAt_setRes (c d : Core) (i : Fin 5) (v : Word) (s : State) :
    mboxAt (setRes c i v s) d =
      if d = c then { mboxAt s c with res := (mboxAt s c).res.set i.val v } else mboxAt s d := by
  simp [setRes, mboxAt_setMbox]

theorem mboxAt_endOp (c d : Core) (k : StatusCode) (s : State) :
    mboxAt (endOp c k s) d =
      if d = c then { mboxAt s c with pending := false, running := false, done := true, code := codeByte k }
      else mboxAt s d := by
  simp [endOp, mboxAt_setMbox]

@[simp] theorem mboxAt_endOp_self (c : Core) (k : StatusCode) (s : State) :
    mboxAt (endOp c k s) c =
      { mboxAt s c with pending := false, running := false, done := true, code := codeByte k } := by
  simp [mboxAt_endOp]

theorem mboxAt_endOp_ne {c d : Core} (h : d ≠ c) (k : StatusCode) (s : State) : mboxAt (endOp c k s) d = mboxAt s d := by
  simp [mboxAt_endOp, h]

@[simp] theorem release_mboxAt (s : State) (d : Core) : mboxAt (release s) d = mboxAt s d := rfl

@[simp] theorem setProgrammed_mboxAt (b : Bool) (s : State) (d : Core) : mboxAt (setProgrammed b s) d = mboxAt s d := rfl

@[simp] theorem discardParams_mboxAt (s : State) (d : Core) : mboxAt (discardParams s) d = mboxAt s d := by
  unfold discardParams; split <;> simp

@[simp] theorem recordFault_mboxAt (k : StatusCode) (info : BitVec 16) (s : State) (d : Core) :
    mboxAt (recordFault k info s) d = mboxAt s d := by
  unfold recordFault; split <;> rfl

@[simp] theorem release_seq (s : State) : (release s).seq = { s.seq with busy := false, script := [], result := none } := rfl

/-- The results of an op leave every other mailbox alone, and of its own only `RES` changes. -/
theorem mboxAt_setResults (c d : Core) (e : Ending) (s : State) :
    ∃ r : Regs5, mboxAt (setResults c e s) d = (if d = c then { mboxAt s c with res := r } else mboxAt s d) := by
  cases e with
  | plain => exact ⟨(mboxAt s c).res, by simp only [setResults]; split <;> simp_all⟩
  | sleepResult =>
    simp only [setResults, setResSleep]
    split
    · exact ⟨_, mboxAt_setRes c d 0 _ s⟩
    · exact ⟨(mboxAt s c).res, by split <;> simp_all⟩
  | budget =>
    refine ⟨(((mboxAt s c).res.set 0 s.slp.params.budget.lpWait).set 1 s.slp.params.budget.hpWait).set 2
      s.slp.params.budget.totalGuardTimeUs, ?_⟩
    by_cases h : d = c <;> simp [setResults, mboxAt_setRes, h]

/-- The op that ends `OK` leaves its core's mailbox done with code OK and every other one alone. -/
theorem mboxAt_finishOp (e : Ending) (s : State) (d : Core) :
    ∃ r : Regs5, mboxAt (finishOp e s) d =
      (if d = s.seq.owner then
        { mboxAt s d with pending := false, running := false, done := true, code := codeByte .ok, res := r }
      else mboxAt s d) := by
  obtain ⟨r, hr⟩ := mboxAt_setResults s.seq.owner d e s
  refine ⟨r, ?_⟩
  by_cases h : d = s.seq.owner
  · subst h
    simp only [finishOp, release_mboxAt, mboxAt_endOp_self, hr, if_true]
  · simp only [finishOp, release_mboxAt, mboxAt_endOp_ne h, hr, h, if_false]

@[simp] theorem finishOp_seq (e : Ending) (s : State) :
    (finishOp e s).seq = { s.seq with busy := false, script := [], result := none } := by
  simp [finishOp]

/-- Everything the end of a micro-step can do: keep the rest of the script, a suffix of the one given, or end the op; with
`programmed` set on the way or not. -/
theorem advance_cases (script : List Micro) (s : State) :
    ∃ s' : State, (s' = s ∨ s' = setProgrammed true s) ∧
      ((∃ rest, rest <:+ script ∧ advance script s = setSeq { s.seq with script := rest } s') ∨
        ∃ e, advance script s = finishOp e s') := by
  induction script, s using advance.induct with
  | case1 rest s ih =>
    obtain ⟨s', hs, h⟩ := ih
    refine ⟨s', ?_, ?_⟩
    · rcases hs with rfl | rfl
      · exact .inr rfl
      · exact .inr rfl
    · rcases h with ⟨l, hl, h⟩ | ⟨e, h⟩
      · exact .inl ⟨l, hl.trans (List.suffix_cons _ _), by simpa [advance] using h⟩
      · exact .inr ⟨e, by simpa [advance] using h⟩
  | case2 e rest s => exact ⟨s, .inl rfl, .inr ⟨e, rfl⟩⟩
  | case3 rest s h1 h2 =>
    refine ⟨s, .inl rfl, .inl ⟨rest, List.suffix_refl _, ?_⟩⟩
    simp [advance]

/-- The end of a micro-step before another micro-step: the rest of the script stays, nothing else happens. -/
theorem advance_cons {m : Micro} {rest : List Micro} (h1 : m ≠ .setProgrammed) (h2 : ∀ e, m ≠ .finish e) (s : State) :
    advance (m :: rest) s = setSeq { s.seq with script := m :: rest } s := by
  cases m <;> simp_all [advance]

@[simp] theorem advance_finish (e : Ending) (rest : List Micro) (s : State) :
    advance (.finish e :: rest) s = finishOp e s := rfl

@[simp] theorem advance_setProgrammed (rest : List Micro) (s : State) :
    advance (.setProgrammed :: rest) s = advance rest (setProgrammed true s) := rfl

/-! ### Acceptance -/

/-- Everything an immediate op can do: be turned away with a code, or run its body with every check passed. -/
theorem immediate_cases (checks : List (Bool × StatusCode)) (body : State → State) (s : State) :
    (∃ k, immediate checks body s = .next (endOp s.env.picked k s)) ∨
      (s.fault.halted = false ∧ firstFailing checks = none ∧ immediate checks body s = .next (body s)) := by
  unfold immediate
  cases hh : s.fault.halted
  · cases hf : firstFailing checks with
    | none => exact .inr ⟨rfl, rfl, by simp⟩
    | some k => exact .inl ⟨k, by simp⟩
  · exact .inl ⟨.halted, by simp⟩

/-- Everything a sequenced op's acceptance can do: be turned away with a code, stay pending while another op runs, or start. -/
theorem sequenced_cases (checks : List (Bool × StatusCode)) (prep : State → State) (script : List Micro) (s : State) :
    (∃ k, sequenced checks prep script s = .next (endOp s.env.picked k s)) ∨
      (s.seq.busy = true ∧ sequenced checks prep script s = .next s) ∨
      (s.fault.halted = false ∧ s.seq.busy = false ∧ firstFailing checks = none ∧
        sequenced checks prep script s = .next (start script (prep s))) := by
  unfold sequenced
  cases hh : s.fault.halted
  · cases hb : s.seq.busy
    · cases hf : firstFailing checks with
      | none => exact .inr (.inr ⟨rfl, rfl, rfl, by simp⟩)
      | some k => exact .inl ⟨k, by simp⟩
    · exact .inr (.inl ⟨rfl, by simp⟩)
  · exact .inl ⟨.halted, by simp⟩

@[simp] theorem firstFailing_nil : firstFailing [] = none := rfl

theorem firstFailing_cons (b : Bool) (k : StatusCode) (rest : List (Bool × StatusCode)) :
    firstFailing ((b, k) :: rest) = if b then firstFailing rest else some k := by
  cases b <;> rfl

/-- No check fails exactly when every condition holds. -/
theorem firstFailing_eq_none (checks : List (Bool × StatusCode)) :
    firstFailing checks = none ↔ ∀ e ∈ checks, e.1 = true := by
  induction checks with
  | nil => simp
  | cons e rest ih =>
    obtain ⟨b, k⟩ := e
    cases b <;> simp [firstFailing_cons, ih]

/-! ### Fatal faults -/

/-- After a fatal fault the block is in HALT; the first fault's record stays. -/
theorem raiseFatal_fault (c : Core) (q : Bool) (k : StatusCode) (info : BitVec 16) (s : State) :
    (raiseFatal c q k info s).fault =
      if s.fault.halted then s.fault else { halted := true, code := codeByte k, info := info } := by
  cases q <;> simp [raiseFatal, recordFault] <;> split <;> rfl

/-! ### Outbound accesses -/

@[simp] theorem eventAccess_w (f : RegField) (v : Word) : eventAccess (.w f v) = .write (Config.regLocation f) v := rfl
@[simp] theorem eventAccess_b (f : BusField) (v : Byte) : eventAccess (.b f v) = .busWrite (Config.busLocation f) v := rfl
/-- A `W` event is a 4-byte write (20_memory.md R47). -/
theorem accessBytes_w (f : RegField) (v : Word) : accessBytes (eventAccess (.w f v)) = 4 := rfl
/-- A `B` event is a 1-byte write (R47). -/
theorem accessBytes_b (f : BusField) (v : Byte) : accessBytes (eventAccess (.b f v)) = 1 := rfl

/-- A poll is a 4-byte read or a 1-byte read, of the bus that has its input (R47). -/
theorem accessBytes_r (i : StatusInput) (v : Word) :
    (∃ loc, eventAccess (.r i v) = .read loc v ∧ accessBytes (eventAccess (.r i v)) = 4) ∨
      ∃ loc, eventAccess (.r i v) = .busRead loc (v.setWidth 8) ∧ accessBytes (eventAccess (.r i v)) = 1 := by
  simp only [eventAccess]
  cases Config.pollLocation i with
  | reg loc => exact .inl ⟨loc, rfl, rfl⟩
  | ctl loc => exact .inr ⟨loc, rfl, rfl⟩

@[simp] theorem accesses_emit (e : Event) (s : State) : accesses (emit e s) = accesses s ++ [eventAccess e] := by
  simp [accesses, emit]

/-- The address of a RegisterBus word is four times its number (20_memory.md R41). -/
theorem regAddress_toNat (loc : RegLocation) : (regAddress loc).toNat = loc.word.toNat * 4 :=
  (BitVec.toNat_append loc.word (0 : BitVec 2)).trans (by simp [Nat.shiftLeft_eq])

/-- Every RegisterBus address is a multiple of 4 (R41). -/
theorem regAddress_aligned (loc : RegLocation) : (regAddress loc).toNat % 4 = 0 := by
  rw [regAddress_toNat]; omega

/-- Two RegisterBus words are the same word or share no byte (R41). -/
theorem regAddress_disjoint (a b : RegLocation) (h : regAddress a ≠ regAddress b) :
    (regAddress a).toNat + 4 ≤ (regAddress b).toNat ∨ (regAddress b).toNat + 4 ≤ (regAddress a).toNat := by
  have ha := regAddress_aligned a
  have hb := regAddress_aligned b
  have hn : (regAddress a).toNat ≠ (regAddress b).toNat := fun e => h (BitVec.eq_of_toNat_eq e)
  omega

/-- The bits of a range. -/
theorem getLsbD_rangeMask {w : Nat} (r : BitRange w) (i : Nat) :
    (rangeMask r).getLsbD i = decide (i < w ∧ r.lo.val ≤ i ∧ i ≤ r.hi.val) := by
  have h := Nat.testBit_two_pow_sub_one (r.hi.val + 1 - r.lo.val) (i - r.lo.val)
  simp only [rangeMask, BitVec.getLsbD_shiftLeft, BitVec.getLsbD_ofNat, h]
  by_cases h1 : i < w <;> by_cases h2 : r.lo.val ≤ i <;> by_cases h3 : i ≤ r.hi.val <;> simp [h1, h2, h3] <;> omega

/-- A masked write takes the bits of its range from the value and keeps the others (R45). -/
theorem getLsbD_maskedWrite {w : Nat} (r : BitRange w) (old v : BitVec w) (i : Nat) (hi : i < w) :
    (maskedWrite (some r) old v).getLsbD i =
      if r.lo.val ≤ i ∧ i ≤ r.hi.val then v.getLsbD (i - r.lo.val) else old.getLsbD i := by
  simp only [maskedWrite, BitVec.getLsbD_or, BitVec.getLsbD_and, BitVec.getLsbD_not, getLsbD_rangeMask,
    BitVec.getLsbD_shiftLeft]
  by_cases h2 : r.lo.val ≤ i <;> by_cases h3 : i ≤ r.hi.val <;> simp [hi, h2, h3]

/-- A masked read gives the bits of its range, from bit 0 on. -/
theorem getLsbD_maskedRead {w : Nat} (r : BitRange w) (t : BitVec w) (i : Nat) :
    (maskedRead (some r) t).getLsbD i = (decide (r.lo.val + i ≤ r.hi.val) && t.getLsbD (r.lo.val + i)) := by
  simp only [maskedRead, BitVec.getLsbD_ushiftRight, BitVec.getLsbD_and, getLsbD_rangeMask]
  by_cases h : r.lo.val + i < w
  · simp [h, Bool.and_comm]
  · simp [BitVec.getLsbD_of_ge t (r.lo.val + i) (by omega), h]

end Sys2Proof.Machine
end

