-- ==== Sys2Proof/Laws/Micro.lean ====
section
/-! SUPPORT. For each micro-step's effect, what it leaves alone and what it does, so that no later proof unfolds it. -/

namespace Sys2Proof.Machine

/-! ### `doApplyWrite` -/

@[simp] theorem doApplyWrite_cfg (t : ClockConfig) (f : RegField) (s : State) : (doApplyWrite t f s).cfg = s.cfg := rfl

@[simp] theorem doApplyWrite_mbox (t : ClockConfig) (f : RegField) (s : State) : (doApplyWrite t f s).mbox = s.mbox := rfl

@[simp] theorem doApplyWrite_seq (t : ClockConfig) (f : RegField) (s : State) : (doApplyWrite t f s).seq = s.seq := rfl

@[simp] theorem doApplyWrite_plls (t : ClockConfig) (f : RegField) (s : State) : (doApplyWrite t f s).plls = s.plls := rfl

@[simp] theorem doApplyWrite_curPllFreqMhz (t : ClockConfig) (f : RegField) (s : State) : (doApplyWrite t f s).curPllFreqMhz = s.curPllFreqMhz := rfl

@[simp] theorem doApplyWrite_lastCalPll (t : ClockConfig) (f : RegField) (s : State) : (doApplyWrite t f s).lastCalPll = s.lastCalPll := rfl

@[simp] theorem doApplyWrite_slp (t : ClockConfig) (f : RegField) (s : State) : (doApplyWrite t f s).slp = s.slp := rfl

@[simp] theorem doApplyWrite_fault (t : ClockConfig) (f : RegField) (s : State) : (doApplyWrite t f s).fault = s.fault := rfl

@[simp] theorem doApplyWrite_env (t : ClockConfig) (f : RegField) (s : State) : (doApplyWrite t f s).env = s.env := rfl

@[simp] theorem doApplyWrite_mboxAt (t : ClockConfig) (f : RegField) (s : State) (d : Core) : mboxAt (doApplyWrite t f s) d = mboxAt s d := by
  simp [mboxAt]

@[simp] theorem doApplyWrite_pllAt (t : ClockConfig) (f : RegField) (s : State) (j : PllId) : pllAt (doApplyWrite t f s) j = pllAt s j := by
  simp [pllAt]

/-! ### `doApplyEnd` -/

@[simp] theorem doApplyEnd_cfg (t : ClockConfig) (s : State) : (doApplyEnd t s).cfg = s.cfg := rfl

@[simp] theorem doApplyEnd_mbox (t : ClockConfig) (s : State) : (doApplyEnd t s).mbox = s.mbox := rfl

@[simp] theorem doApplyEnd_seq (t : ClockConfig) (s : State) : (doApplyEnd t s).seq = s.seq := rfl

@[simp] theorem doApplyEnd_plls (t : ClockConfig) (s : State) : (doApplyEnd t s).plls = s.plls := rfl

@[simp] theorem doApplyEnd_curPllFreqMhz (t : ClockConfig) (s : State) : (doApplyEnd t s).curPllFreqMhz = s.curPllFreqMhz := rfl

@[simp] theorem doApplyEnd_lastCalPll (t : ClockConfig) (s : State) : (doApplyEnd t s).lastCalPll = s.lastCalPll := rfl

@[simp] theorem doApplyEnd_slp (t : ClockConfig) (s : State) : (doApplyEnd t s).slp = s.slp := rfl

@[simp] theorem doApplyEnd_fault (t : ClockConfig) (s : State) : (doApplyEnd t s).fault = s.fault := rfl

@[simp] theorem doApplyEnd_trace (t : ClockConfig) (s : State) : (doApplyEnd t s).trace = s.trace := rfl

@[simp] theorem doApplyEnd_env (t : ClockConfig) (s : State) : (doApplyEnd t s).env = s.env := rfl

@[simp] theorem doApplyEnd_mboxAt (t : ClockConfig) (s : State) (d : Core) : mboxAt (doApplyEnd t s) d = mboxAt s d := by
  simp [mboxAt]

@[simp] theorem doApplyEnd_pllAt (t : ClockConfig) (s : State) (j : PllId) : pllAt (doApplyEnd t s) j = pllAt s j := by
  simp [pllAt]

/-! ### `doStepFive` -/

@[simp] theorem doStepFive_cfg (a b : Word) (s : State) : (doStepFive a b s).cfg = s.cfg := rfl

@[simp] theorem doStepFive_mbox (a b : Word) (s : State) : (doStepFive a b s).mbox = s.mbox := rfl

@[simp] theorem doStepFive_seq (a b : Word) (s : State) : (doStepFive a b s).seq = s.seq := rfl

@[simp] theorem doStepFive_plls (a b : Word) (s : State) : (doStepFive a b s).plls = s.plls := rfl

@[simp] theorem doStepFive_curPllFreqMhz (a b : Word) (s : State) : (doStepFive a b s).curPllFreqMhz = s.curPllFreqMhz := rfl

@[simp] theorem doStepFive_lastCalPll (a b : Word) (s : State) : (doStepFive a b s).lastCalPll = s.lastCalPll := rfl

@[simp] theorem doStepFive_slp (a b : Word) (s : State) : (doStepFive a b s).slp = s.slp := rfl

@[simp] theorem doStepFive_fault (a b : Word) (s : State) : (doStepFive a b s).fault = s.fault := rfl

@[simp] theorem doStepFive_trace (a b : Word) (s : State) : (doStepFive a b s).trace = s.trace := rfl

@[simp] theorem doStepFive_env (a b : Word) (s : State) : (doStepFive a b s).env = s.env := rfl

@[simp] theorem doStepFive_mboxAt (a b : Word) (s : State) (d : Core) : mboxAt (doStepFive a b s) d = mboxAt s d := by
  simp [mboxAt]

@[simp] theorem doStepFive_pllAt (a b : Word) (s : State) (j : PllId) : pllAt (doStepFive a b s) j = pllAt s j := by
  simp [pllAt]

/-! ### `pllEnableBody` -/

@[simp] theorem pllEnableBody_cfg (id : PllId) (s : State) : (pllEnableBody id s).cfg = s.cfg := rfl

@[simp] theorem pllEnableBody_mbox (id : PllId) (s : State) : (pllEnableBody id s).mbox = s.mbox := rfl

@[simp] theorem pllEnableBody_seq (id : PllId) (s : State) : (pllEnableBody id s).seq = s.seq := rfl

@[simp] theorem pllEnableBody_clk (id : PllId) (s : State) : (pllEnableBody id s).clk = s.clk := rfl

@[simp] theorem pllEnableBody_curPllFreqMhz (id : PllId) (s : State) : (pllEnableBody id s).curPllFreqMhz = s.curPllFreqMhz := rfl

@[simp] theorem pllEnableBody_lastCalPll (id : PllId) (s : State) : (pllEnableBody id s).lastCalPll = s.lastCalPll := rfl

@[simp] theorem pllEnableBody_slp (id : PllId) (s : State) : (pllEnableBody id s).slp = s.slp := rfl

@[simp] theorem pllEnableBody_fault (id : PllId) (s : State) : (pllEnableBody id s).fault = s.fault := rfl

@[simp] theorem pllEnableBody_env (id : PllId) (s : State) : (pllEnableBody id s).env = s.env := rfl

@[simp] theorem pllEnableBody_mboxAt (id : PllId) (s : State) (d : Core) : mboxAt (pllEnableBody id s) d = mboxAt s d := by
  simp [mboxAt]

/-! ### `forgetCurPll` -/

@[simp] theorem forgetCurPll_cfg (id : PllId) (s : State) : (forgetCurPll id s).cfg = s.cfg := by
  unfold forgetCurPll; split <;> rfl

@[simp] theorem forgetCurPll_mbox (id : PllId) (s : State) : (forgetCurPll id s).mbox = s.mbox := by
  unfold forgetCurPll; split <;> rfl

@[simp] theorem forgetCurPll_seq (id : PllId) (s : State) : (forgetCurPll id s).seq = s.seq := by
  unfold forgetCurPll; split <;> rfl

@[simp] theorem forgetCurPll_clk (id : PllId) (s : State) : (forgetCurPll id s).clk = s.clk := by
  unfold forgetCurPll; split <;> rfl

@[simp] theorem forgetCurPll_plls (id : PllId) (s : State) : (forgetCurPll id s).plls = s.plls := by
  unfold forgetCurPll; split <;> rfl

@[simp] theorem forgetCurPll_lastCalPll (id : PllId) (s : State) : (forgetCurPll id s).lastCalPll = s.lastCalPll := by
  unfold forgetCurPll; split <;> rfl

@[simp] theorem forgetCurPll_slp (id : PllId) (s : State) : (forgetCurPll id s).slp = s.slp := by
  unfold forgetCurPll; split <;> rfl

@[simp] theorem forgetCurPll_fault (id : PllId) (s : State) : (forgetCurPll id s).fault = s.fault := by
  unfold forgetCurPll; split <;> rfl

@[simp] theorem forgetCurPll_trace (id : PllId) (s : State) : (forgetCurPll id s).trace = s.trace := by
  unfold forgetCurPll; split <;> rfl

@[simp] theorem forgetCurPll_env (id : PllId) (s : State) : (forgetCurPll id s).env = s.env := by
  unfold forgetCurPll; split <;> rfl

@[simp] theorem forgetCurPll_mboxAt (id : PllId) (s : State) (d : Core) : mboxAt (forgetCurPll id s) d = mboxAt s d := by
  simp [mboxAt]

@[simp] theorem forgetCurPll_pllAt (id : PllId) (s : State) (j : PllId) : pllAt (forgetCurPll id s) j = pllAt s j := by
  simp [pllAt]

/-! ### `pllDisableBody` -/

@[simp] theorem pllDisableBody_cfg (id : PllId) (s : State) : (pllDisableBody id s).cfg = s.cfg := by
  simp [pllDisableBody]

@[simp] theorem pllDisableBody_mbox (id : PllId) (s : State) : (pllDisableBody id s).mbox = s.mbox := by
  simp [pllDisableBody]

@[simp] theorem pllDisableBody_seq (id : PllId) (s : State) : (pllDisableBody id s).seq = s.seq := by
  simp [pllDisableBody]

@[simp] theorem pllDisableBody_clk (id : PllId) (s : State) : (pllDisableBody id s).clk = s.clk := by
  simp [pllDisableBody]

@[simp] theorem pllDisableBody_lastCalPll (id : PllId) (s : State) : (pllDisableBody id s).lastCalPll = s.lastCalPll := by
  simp [pllDisableBody]

@[simp] theorem pllDisableBody_slp (id : PllId) (s : State) : (pllDisableBody id s).slp = s.slp := by
  simp [pllDisableBody]

@[simp] theorem pllDisableBody_fault (id : PllId) (s : State) : (pllDisableBody id s).fault = s.fault := by
  simp [pllDisableBody]

@[simp] theorem pllDisableBody_env (id : PllId) (s : State) : (pllDisableBody id s).env = s.env := by
  simp [pllDisableBody]

@[simp] theorem pllDisableBody_mboxAt (id : PllId) (s : State) (d : Core) : mboxAt (pllDisableBody id s) d = mboxAt s d := by
  simp [mboxAt]

/-! ### `doDropPll` -/

@[simp] theorem doDropPll_cfg (id : PllId) (s : State) : (doDropPll id s).cfg = s.cfg := by
  unfold doDropPll; split <;> simp

@[simp] theorem doDropPll_mbox (id : PllId) (s : State) : (doDropPll id s).mbox = s.mbox := by
  unfold doDropPll; split <;> simp

@[simp] theorem doDropPll_seq (id : PllId) (s : State) : (doDropPll id s).seq = s.seq := by
  unfold doDropPll; split <;> simp

@[simp] theorem doDropPll_clk (id : PllId) (s : State) : (doDropPll id s).clk = s.clk := by
  unfold doDropPll; split <;> simp

@[simp] theorem doDropPll_lastCalPll (id : PllId) (s : State) : (doDropPll id s).lastCalPll = s.lastCalPll := by
  unfold doDropPll; split <;> simp

@[simp] theorem doDropPll_slp (id : PllId) (s : State) : (doDropPll id s).slp = s.slp := by
  unfold doDropPll; split <;> simp

@[simp] theorem doDropPll_fault (id : PllId) (s : State) : (doDropPll id s).fault = s.fault := by
  unfold doDropPll; split <;> simp

@[simp] theorem doDropPll_env (id : PllId) (s : State) : (doDropPll id s).env = s.env := by
  unfold doDropPll; split <;> simp

@[simp] theorem doDropPll_mboxAt (id : PllId) (s : State) (d : Core) : mboxAt (doDropPll id s) d = mboxAt s d := by
  simp [mboxAt]

/-! ### `doCalDivide` -/

@[simp] theorem doCalDivide_cfg (id : PllId) (x t : Word) (s : State) : (doCalDivide id x t s).cfg = s.cfg := by
  simp [doCalDivide]

@[simp] theorem doCalDivide_mbox (id : PllId) (x t : Word) (s : State) : (doCalDivide id x t s).mbox = s.mbox := by
  simp [doCalDivide]

@[simp] theorem doCalDivide_seq (id : PllId) (x t : Word) (s : State) : (doCalDivide id x t s).seq = s.seq := by
  simp [doCalDivide]

@[simp] theorem doCalDivide_clk (id : PllId) (x t : Word) (s : State) : (doCalDivide id x t s).clk = s.clk := by
  simp [doCalDivide]

@[simp] theorem doCalDivide_lastCalPll (id : PllId) (x t : Word) (s : State) : (doCalDivide id x t s).lastCalPll = s.lastCalPll := by
  simp [doCalDivide]

@[simp] theorem doCalDivide_slp (id : PllId) (x t : Word) (s : State) : (doCalDivide id x t s).slp = s.slp := by
  simp [doCalDivide]

@[simp] theorem doCalDivide_fault (id : PllId) (x t : Word) (s : State) : (doCalDivide id x t s).fault = s.fault := by
  simp [doCalDivide]

@[simp] theorem doCalDivide_env (id : PllId) (x t : Word) (s : State) : (doCalDivide id x t s).env = s.env := by
  simp [doCalDivide]

@[simp] theorem doCalDivide_mboxAt (id : PllId) (x t : Word) (s : State) (d : Core) : mboxAt (doCalDivide id x t s) d = mboxAt s d := by
  simp [mboxAt]

/-! ### `doCalStart` -/

@[simp] theorem doCalStart_cfg (id : PllId) (s : State) : (doCalStart id s).cfg = s.cfg := rfl

@[simp] theorem doCalStart_mbox (id : PllId) (s : State) : (doCalStart id s).mbox = s.mbox := rfl

@[simp] theorem doCalStart_seq (id : PllId) (s : State) : (doCalStart id s).seq = s.seq := rfl

@[simp] theorem doCalStart_clk (id : PllId) (s : State) : (doCalStart id s).clk = s.clk := rfl

@[simp] theorem doCalStart_curPllFreqMhz (id : PllId) (s : State) : (doCalStart id s).curPllFreqMhz = s.curPllFreqMhz := rfl

@[simp] theorem doCalStart_lastCalPll (id : PllId) (s : State) : (doCalStart id s).lastCalPll = s.lastCalPll := rfl

@[simp] theorem doCalStart_slp (id : PllId) (s : State) : (doCalStart id s).slp = s.slp := rfl

@[simp] theorem doCalStart_fault (id : PllId) (s : State) : (doCalStart id s).fault = s.fault := rfl

@[simp] theorem doCalStart_env (id : PllId) (s : State) : (doCalStart id s).env = s.env := rfl

@[simp] theorem doCalStart_mboxAt (id : PllId) (s : State) (d : Core) : mboxAt (doCalStart id s) d = mboxAt s d := by
  simp [mboxAt]

/-! ### `calPolled` -/

@[simp] theorem calPolled_cfg (id : PllId) (b : Bool) (s : State) : (calPolled id b s).cfg = s.cfg := rfl

@[simp] theorem calPolled_mbox (id : PllId) (b : Bool) (s : State) : (calPolled id b s).mbox = s.mbox := rfl

@[simp] theorem calPolled_seq (id : PllId) (b : Bool) (s : State) : (calPolled id b s).seq = s.seq := rfl

@[simp] theorem calPolled_clk (id : PllId) (b : Bool) (s : State) : (calPolled id b s).clk = s.clk := rfl

@[simp] theorem calPolled_curPllFreqMhz (id : PllId) (b : Bool) (s : State) : (calPolled id b s).curPllFreqMhz = s.curPllFreqMhz := rfl

@[simp] theorem calPolled_lastCalPll (id : PllId) (b : Bool) (s : State) : (calPolled id b s).lastCalPll = s.lastCalPll := rfl

@[simp] theorem calPolled_slp (id : PllId) (b : Bool) (s : State) : (calPolled id b s).slp = s.slp := rfl

@[simp] theorem calPolled_fault (id : PllId) (b : Bool) (s : State) : (calPolled id b s).fault = s.fault := rfl

@[simp] theorem calPolled_env (id : PllId) (b : Bool) (s : State) : (calPolled id b s).env = s.env := rfl

@[simp] theorem calPolled_mboxAt (id : PllId) (b : Bool) (s : State) (d : Core) : mboxAt (calPolled id b s) d = mboxAt s d := by
  simp [mboxAt]

/-! ### `doCalStop` -/

@[simp] theorem doCalStop_cfg (id : PllId) (t : Word) (s : State) : (doCalStop id t s).cfg = s.cfg := rfl

@[simp] theorem doCalStop_mbox (id : PllId) (t : Word) (s : State) : (doCalStop id t s).mbox = s.mbox := rfl

@[simp] theorem doCalStop_seq (id : PllId) (t : Word) (s : State) : (doCalStop id t s).seq = s.seq := rfl

@[simp] theorem doCalStop_clk (id : PllId) (t : Word) (s : State) : (doCalStop id t s).clk = s.clk := rfl

@[simp] theorem doCalStop_slp (id : PllId) (t : Word) (s : State) : (doCalStop id t s).slp = s.slp := rfl

@[simp] theorem doCalStop_fault (id : PllId) (t : Word) (s : State) : (doCalStop id t s).fault = s.fault := rfl

@[simp] theorem doCalStop_env (id : PllId) (t : Word) (s : State) : (doCalStop id t s).env = s.env := rfl

@[simp] theorem doCalStop_mboxAt (id : PllId) (t : Word) (s : State) (d : Core) : mboxAt (doCalStop id t s) d = mboxAt s d := by
  simp [mboxAt]

/-! ### `doBuildParams` -/

@[simp] theorem doBuildParams_cfg (mf pd adj : Word) (s : State) : (doBuildParams mf pd adj s).cfg = s.cfg := rfl

@[simp] theorem doBuildParams_mbox (mf pd adj : Word) (s : State) : (doBuildParams mf pd adj s).mbox = s.mbox := rfl

@[simp] theorem doBuildParams_seq (mf pd adj : Word) (s : State) : (doBuildParams mf pd adj s).seq = s.seq := rfl

@[simp] theorem doBuildParams_clk (mf pd adj : Word) (s : State) : (doBuildParams mf pd adj s).clk = s.clk := rfl

@[simp] theorem doBuildParams_plls (mf pd adj : Word) (s : State) : (doBuildParams mf pd adj s).plls = s.plls := rfl

@[simp] theorem doBuildParams_curPllFreqMhz (mf pd adj : Word) (s : State) : (doBuildParams mf pd adj s).curPllFreqMhz = s.curPllFreqMhz := rfl

@[simp] theorem doBuildParams_lastCalPll (mf pd adj : Word) (s : State) : (doBuildParams mf pd adj s).lastCalPll = s.lastCalPll := rfl

@[simp] theorem doBuildParams_fault (mf pd adj : Word) (s : State) : (doBuildParams mf pd adj s).fault = s.fault := rfl

@[simp] theorem doBuildParams_trace (mf pd adj : Word) (s : State) : (doBuildParams mf pd adj s).trace = s.trace := rfl

@[simp] theorem doBuildParams_env (mf pd adj : Word) (s : State) : (doBuildParams mf pd adj s).env = s.env := rfl

@[simp] theorem doBuildParams_mboxAt (mf pd adj : Word) (s : State) (d : Core) : mboxAt (doBuildParams mf pd adj s) d = mboxAt s d := by
  simp [mboxAt]

@[simp] theorem doBuildParams_pllAt (mf pd adj : Word) (s : State) (j : PllId) : pllAt (doBuildParams mf pd adj s) j = pllAt s j := by
  simp [pllAt]

/-! ### `doProgWrite` -/

@[simp] theorem doProgWrite_cfg (f : RegField) (s : State) : (doProgWrite f s).cfg = s.cfg := rfl

@[simp] theorem doProgWrite_mbox (f : RegField) (s : State) : (doProgWrite f s).mbox = s.mbox := rfl

@[simp] theorem doProgWrite_seq (f : RegField) (s : State) : (doProgWrite f s).seq = s.seq := rfl

@[simp] theorem doProgWrite_clk (f : RegField) (s : State) : (doProgWrite f s).clk = s.clk := rfl

@[simp] theorem doProgWrite_plls (f : RegField) (s : State) : (doProgWrite f s).plls = s.plls := rfl

@[simp] theorem doProgWrite_curPllFreqMhz (f : RegField) (s : State) : (doProgWrite f s).curPllFreqMhz = s.curPllFreqMhz := rfl

@[simp] theorem doProgWrite_lastCalPll (f : RegField) (s : State) : (doProgWrite f s).lastCalPll = s.lastCalPll := rfl

@[simp] theorem doProgWrite_fault (f : RegField) (s : State) : (doProgWrite f s).fault = s.fault := rfl

@[simp] theorem doProgWrite_env (f : RegField) (s : State) : (doProgWrite f s).env = s.env := rfl

@[simp] theorem doProgWrite_mboxAt (f : RegField) (s : State) (d : Core) : mboxAt (doProgWrite f s) d = mboxAt s d := by
  simp [mboxAt]

@[simp] theorem doProgWrite_pllAt (f : RegField) (s : State) (j : PllId) : pllAt (doProgWrite f s) j = pllAt s j := by
  simp [pllAt]

/-! ### `doRegdmaWrite` -/

@[simp] theorem doRegdmaWrite_cfg (on : Bool) (s : State) : (doRegdmaWrite on s).cfg = s.cfg := rfl

@[simp] theorem doRegdmaWrite_mbox (on : Bool) (s : State) : (doRegdmaWrite on s).mbox = s.mbox := rfl

@[simp] theorem doRegdmaWrite_seq (on : Bool) (s : State) : (doRegdmaWrite on s).seq = s.seq := rfl

@[simp] theorem doRegdmaWrite_clk (on : Bool) (s : State) : (doRegdmaWrite on s).clk = s.clk := rfl

@[simp] theorem doRegdmaWrite_plls (on : Bool) (s : State) : (doRegdmaWrite on s).plls = s.plls := rfl

@[simp] theorem doRegdmaWrite_curPllFreqMhz (on : Bool) (s : State) : (doRegdmaWrite on s).curPllFreqMhz = s.curPllFreqMhz := rfl

@[simp] theorem doRegdmaWrite_lastCalPll (on : Bool) (s : State) : (doRegdmaWrite on s).lastCalPll = s.lastCalPll := rfl

@[simp] theorem doRegdmaWrite_fault (on : Bool) (s : State) : (doRegdmaWrite on s).fault = s.fault := rfl

@[simp] theorem doRegdmaWrite_env (on : Bool) (s : State) : (doRegdmaWrite on s).env = s.env := rfl

@[simp] theorem doRegdmaWrite_mboxAt (on : Bool) (s : State) (d : Core) : mboxAt (doRegdmaWrite on s) d = mboxAt s d := by
  simp [mboxAt]

@[simp] theorem doRegdmaWrite_pllAt (on : Bool) (s : State) (j : PllId) : pllAt (doRegdmaWrite on s) j = pllAt s j := by
  simp [pllAt]

/-! ### `doWakeType` -/

@[simp] theorem doWakeType_cfg (deep : Bool) (s : State) : (doWakeType deep s).cfg = s.cfg := rfl

@[simp] theorem doWakeType_mbox (deep : Bool) (s : State) : (doWakeType deep s).mbox = s.mbox := rfl

@[simp] theorem doWakeType_seq (deep : Bool) (s : State) : (doWakeType deep s).seq = s.seq := rfl

@[simp] theorem doWakeType_clk (deep : Bool) (s : State) : (doWakeType deep s).clk = s.clk := rfl

@[simp] theorem doWakeType_plls (deep : Bool) (s : State) : (doWakeType deep s).plls = s.plls := rfl

@[simp] theorem doWakeType_curPllFreqMhz (deep : Bool) (s : State) : (doWakeType deep s).curPllFreqMhz = s.curPllFreqMhz := rfl

@[simp] theorem doWakeType_lastCalPll (deep : Bool) (s : State) : (doWakeType deep s).lastCalPll = s.lastCalPll := rfl

@[simp] theorem doWakeType_fault (deep : Bool) (s : State) : (doWakeType deep s).fault = s.fault := rfl

@[simp] theorem doWakeType_env (deep : Bool) (s : State) : (doWakeType deep s).env = s.env := rfl

@[simp] theorem doWakeType_mboxAt (deep : Bool) (s : State) (d : Core) : mboxAt (doWakeType deep s) d = mboxAt s d := by
  simp [mboxAt]

@[simp] theorem doWakeType_pllAt (deep : Bool) (s : State) (j : PllId) : pllAt (doWakeType deep s) j = pllAt s j := by
  simp [pllAt]

/-! ### `doWakeEn` -/

@[simp] theorem doWakeEn_cfg (v : Word) (s : State) : (doWakeEn v s).cfg = s.cfg := rfl

@[simp] theorem doWakeEn_mbox (v : Word) (s : State) : (doWakeEn v s).mbox = s.mbox := rfl

@[simp] theorem doWakeEn_seq (v : Word) (s : State) : (doWakeEn v s).seq = s.seq := rfl

@[simp] theorem doWakeEn_clk (v : Word) (s : State) : (doWakeEn v s).clk = s.clk := rfl

@[simp] theorem doWakeEn_plls (v : Word) (s : State) : (doWakeEn v s).plls = s.plls := rfl

@[simp] theorem doWakeEn_curPllFreqMhz (v : Word) (s : State) : (doWakeEn v s).curPllFreqMhz = s.curPllFreqMhz := rfl

@[simp] theorem doWakeEn_lastCalPll (v : Word) (s : State) : (doWakeEn v s).lastCalPll = s.lastCalPll := rfl

@[simp] theorem doWakeEn_fault (v : Word) (s : State) : (doWakeEn v s).fault = s.fault := rfl

@[simp] theorem doWakeEn_env (v : Word) (s : State) : (doWakeEn v s).env = s.env := rfl

@[simp] theorem doWakeEn_mboxAt (v : Word) (s : State) (d : Core) : mboxAt (doWakeEn v s) d = mboxAt s d := by
  simp [mboxAt]

@[simp] theorem doWakeEn_pllAt (v : Word) (s : State) (j : PllId) : pllAt (doWakeEn v s) j = pllAt s j := by
  simp [pllAt]

/-! ### `doRejectEn` -/

@[simp] theorem doRejectEn_cfg (v : Word) (s : State) : (doRejectEn v s).cfg = s.cfg := rfl

@[simp] theorem doRejectEn_mbox (v : Word) (s : State) : (doRejectEn v s).mbox = s.mbox := rfl

@[simp] theorem doRejectEn_seq (v : Word) (s : State) : (doRejectEn v s).seq = s.seq := rfl

@[simp] theorem doRejectEn_clk (v : Word) (s : State) : (doRejectEn v s).clk = s.clk := rfl

@[simp] theorem doRejectEn_plls (v : Word) (s : State) : (doRejectEn v s).plls = s.plls := rfl

@[simp] theorem doRejectEn_curPllFreqMhz (v : Word) (s : State) : (doRejectEn v s).curPllFreqMhz = s.curPllFreqMhz := rfl

@[simp] theorem doRejectEn_lastCalPll (v : Word) (s : State) : (doRejectEn v s).lastCalPll = s.lastCalPll := rfl

@[simp] theorem doRejectEn_fault (v : Word) (s : State) : (doRejectEn v s).fault = s.fault := rfl

@[simp] theorem doRejectEn_env (v : Word) (s : State) : (doRejectEn v s).env = s.env := rfl

@[simp] theorem doRejectEn_mboxAt (v : Word) (s : State) (d : Core) : mboxAt (doRejectEn v s) d = mboxAt s d := by
  simp [mboxAt]

@[simp] theorem doRejectEn_pllAt (v : Word) (s : State) (j : PllId) : pllAt (doRejectEn v s) j = pllAt s j := by
  simp [pllAt]

/-! ### `doIntClr` -/

@[simp] theorem doIntClr_cfg  (s : State) : (doIntClr  s).cfg = s.cfg := rfl

@[simp] theorem doIntClr_mbox  (s : State) : (doIntClr  s).mbox = s.mbox := rfl

@[simp] theorem doIntClr_seq  (s : State) : (doIntClr  s).seq = s.seq := rfl

@[simp] theorem doIntClr_clk  (s : State) : (doIntClr  s).clk = s.clk := rfl

@[simp] theorem doIntClr_plls  (s : State) : (doIntClr  s).plls = s.plls := rfl

@[simp] theorem doIntClr_curPllFreqMhz  (s : State) : (doIntClr  s).curPllFreqMhz = s.curPllFreqMhz := rfl

@[simp] theorem doIntClr_lastCalPll  (s : State) : (doIntClr  s).lastCalPll = s.lastCalPll := rfl

@[simp] theorem doIntClr_fault  (s : State) : (doIntClr  s).fault = s.fault := rfl

@[simp] theorem doIntClr_env  (s : State) : (doIntClr  s).env = s.env := rfl

@[simp] theorem doIntClr_mboxAt  (s : State) (d : Core) : mboxAt (doIntClr  s) d = mboxAt s d := by
  simp [mboxAt]

@[simp] theorem doIntClr_pllAt  (s : State) (j : PllId) : pllAt (doIntClr  s) j = pllAt s j := by
  simp [pllAt]

/-! ### `doSleepStart` -/

@[simp] theorem doSleepStart_cfg  (s : State) : (doSleepStart  s).cfg = s.cfg := rfl

@[simp] theorem doSleepStart_mbox  (s : State) : (doSleepStart  s).mbox = s.mbox := rfl

@[simp] theorem doSleepStart_seq  (s : State) : (doSleepStart  s).seq = s.seq := rfl

@[simp] theorem doSleepStart_clk  (s : State) : (doSleepStart  s).clk = s.clk := rfl

@[simp] theorem doSleepStart_plls  (s : State) : (doSleepStart  s).plls = s.plls := rfl

@[simp] theorem doSleepStart_curPllFreqMhz  (s : State) : (doSleepStart  s).curPllFreqMhz = s.curPllFreqMhz := rfl

@[simp] theorem doSleepStart_lastCalPll  (s : State) : (doSleepStart  s).lastCalPll = s.lastCalPll := rfl

@[simp] theorem doSleepStart_fault  (s : State) : (doSleepStart  s).fault = s.fault := rfl

@[simp] theorem doSleepStart_env  (s : State) : (doSleepStart  s).env = s.env := rfl

@[simp] theorem doSleepStart_mboxAt  (s : State) (d : Core) : mboxAt (doSleepStart  s) d = mboxAt s d := by
  simp [mboxAt]

@[simp] theorem doSleepStart_pllAt  (s : State) (j : PllId) : pllAt (doSleepStart  s) j = pllAt s j := by
  simp [pllAt]

/-! ### `doEnterEnd` -/

@[simp] theorem doEnterEnd_cfg  (s : State) : (doEnterEnd  s).cfg = s.cfg := rfl

@[simp] theorem doEnterEnd_mbox  (s : State) : (doEnterEnd  s).mbox = s.mbox := rfl

@[simp] theorem doEnterEnd_seq  (s : State) : (doEnterEnd  s).seq = s.seq := rfl

@[simp] theorem doEnterEnd_clk  (s : State) : (doEnterEnd  s).clk = s.clk := rfl

@[simp] theorem doEnterEnd_plls  (s : State) : (doEnterEnd  s).plls = s.plls := rfl

@[simp] theorem doEnterEnd_curPllFreqMhz  (s : State) : (doEnterEnd  s).curPllFreqMhz = s.curPllFreqMhz := rfl

@[simp] theorem doEnterEnd_lastCalPll  (s : State) : (doEnterEnd  s).lastCalPll = s.lastCalPll := rfl

@[simp] theorem doEnterEnd_fault  (s : State) : (doEnterEnd  s).fault = s.fault := rfl

@[simp] theorem doEnterEnd_trace  (s : State) : (doEnterEnd  s).trace = s.trace := rfl

@[simp] theorem doEnterEnd_env  (s : State) : (doEnterEnd  s).env = s.env := rfl

@[simp] theorem doEnterEnd_mboxAt  (s : State) (d : Core) : mboxAt (doEnterEnd  s) d = mboxAt s d := by
  simp [mboxAt]

@[simp] theorem doEnterEnd_pllAt  (s : State) (j : PllId) : pllAt (doEnterEnd  s) j = pllAt s j := by
  simp [pllAt]

/-! ### `wakeTrigger` -/

@[simp] theorem wakeTrigger_cfg  (s : State) : (wakeTrigger  s).cfg = s.cfg := by
  unfold wakeTrigger; split <;> simp

@[simp] theorem wakeTrigger_mbox  (s : State) : (wakeTrigger  s).mbox = s.mbox := by
  unfold wakeTrigger; split <;> simp

@[simp] theorem wakeTrigger_seq  (s : State) : (wakeTrigger  s).seq = s.seq := by
  unfold wakeTrigger; split <;> simp

@[simp] theorem wakeTrigger_clk  (s : State) : (wakeTrigger  s).clk = s.clk := by
  unfold wakeTrigger; split <;> simp

@[simp] theorem wakeTrigger_plls  (s : State) : (wakeTrigger  s).plls = s.plls := by
  unfold wakeTrigger; split <;> simp

@[simp] theorem wakeTrigger_curPllFreqMhz  (s : State) : (wakeTrigger  s).curPllFreqMhz = s.curPllFreqMhz := by
  unfold wakeTrigger; split <;> simp

@[simp] theorem wakeTrigger_lastCalPll  (s : State) : (wakeTrigger  s).lastCalPll = s.lastCalPll := by
  unfold wakeTrigger; split <;> simp

@[simp] theorem wakeTrigger_fault  (s : State) : (wakeTrigger  s).fault = s.fault := by
  unfold wakeTrigger; split <;> simp

@[simp] theorem wakeTrigger_trace  (s : State) : (wakeTrigger  s).trace = s.trace := by
  unfold wakeTrigger; split <;> simp

@[simp] theorem wakeTrigger_env  (s : State) : (wakeTrigger  s).env = s.env := by
  unfold wakeTrigger; split <;> simp

@[simp] theorem wakeTrigger_mboxAt  (s : State) (d : Core) : mboxAt (wakeTrigger  s) d = mboxAt s d := by
  simp [mboxAt]

@[simp] theorem wakeTrigger_pllAt  (s : State) (j : PllId) : pllAt (wakeTrigger  s) j = pllAt s j := by
  simp [pllAt]

/-! ### `lpTick` -/

@[simp] theorem lpTick_cfg  (s : State) : (lpTick  s).cfg = s.cfg := by
  unfold lpTick; split <;> simp

@[simp] theorem lpTick_mbox  (s : State) : (lpTick  s).mbox = s.mbox := by
  unfold lpTick; split <;> simp

@[simp] theorem lpTick_seq  (s : State) : (lpTick  s).seq = s.seq := by
  unfold lpTick; split <;> simp

@[simp] theorem lpTick_clk  (s : State) : (lpTick  s).clk = s.clk := by
  unfold lpTick; split <;> simp

@[simp] theorem lpTick_plls  (s : State) : (lpTick  s).plls = s.plls := by
  unfold lpTick; split <;> simp

@[simp] theorem lpTick_curPllFreqMhz  (s : State) : (lpTick  s).curPllFreqMhz = s.curPllFreqMhz := by
  unfold lpTick; split <;> simp

@[simp] theorem lpTick_lastCalPll  (s : State) : (lpTick  s).lastCalPll = s.lastCalPll := by
  unfold lpTick; split <;> simp

@[simp] theorem lpTick_fault  (s : State) : (lpTick  s).fault = s.fault := by
  unfold lpTick; split <;> simp

@[simp] theorem lpTick_trace  (s : State) : (lpTick  s).trace = s.trace := by
  unfold lpTick; split <;> simp

@[simp] theorem lpTick_env  (s : State) : (lpTick  s).env = s.env := by
  unfold lpTick; split <;> simp

@[simp] theorem lpTick_mboxAt  (s : State) (d : Core) : mboxAt (lpTick  s) d = mboxAt s d := by
  simp [mboxAt]

@[simp] theorem lpTick_pllAt  (s : State) (j : PllId) : pllAt (lpTick  s) j = pllAt s j := by
  simp [pllAt]

/-! ### `lpDone` -/

@[simp] theorem lpDone_cfg  (s : State) : (lpDone  s).cfg = s.cfg := by
  unfold lpDone; split <;> simp

@[simp] theorem lpDone_mbox  (s : State) : (lpDone  s).mbox = s.mbox := by
  unfold lpDone; split <;> simp

@[simp] theorem lpDone_seq  (s : State) : (lpDone  s).seq = s.seq := by
  unfold lpDone; split <;> simp

@[simp] theorem lpDone_clk  (s : State) : (lpDone  s).clk = s.clk := by
  unfold lpDone; split <;> simp

@[simp] theorem lpDone_plls  (s : State) : (lpDone  s).plls = s.plls := by
  unfold lpDone; split <;> simp

@[simp] theorem lpDone_curPllFreqMhz  (s : State) : (lpDone  s).curPllFreqMhz = s.curPllFreqMhz := by
  unfold lpDone; split <;> simp

@[simp] theorem lpDone_lastCalPll  (s : State) : (lpDone  s).lastCalPll = s.lastCalPll := by
  unfold lpDone; split <;> simp

@[simp] theorem lpDone_fault  (s : State) : (lpDone  s).fault = s.fault := by
  unfold lpDone; split <;> simp

@[simp] theorem lpDone_trace  (s : State) : (lpDone  s).trace = s.trace := by
  unfold lpDone; split <;> simp

@[simp] theorem lpDone_env  (s : State) : (lpDone  s).env = s.env := by
  unfold lpDone; split <;> simp

@[simp] theorem lpDone_mboxAt  (s : State) (d : Core) : mboxAt (lpDone  s) d = mboxAt s d := by
  simp [mboxAt]

@[simp] theorem lpDone_pllAt  (s : State) (j : PllId) : pllAt (lpDone  s) j = pllAt s j := by
  simp [pllAt]

/-! ### `hpTick` -/

@[simp] theorem hpTick_cfg  (s : State) : (hpTick  s).cfg = s.cfg := by
  unfold hpTick; split <;> simp

@[simp] theorem hpTick_mbox  (s : State) : (hpTick  s).mbox = s.mbox := by
  unfold hpTick; split <;> simp

@[simp] theorem hpTick_seq  (s : State) : (hpTick  s).seq = s.seq := by
  unfold hpTick; split <;> simp

@[simp] theorem hpTick_clk  (s : State) : (hpTick  s).clk = s.clk := by
  unfold hpTick; split <;> simp

@[simp] theorem hpTick_plls  (s : State) : (hpTick  s).plls = s.plls := by
  unfold hpTick; split <;> simp

@[simp] theorem hpTick_curPllFreqMhz  (s : State) : (hpTick  s).curPllFreqMhz = s.curPllFreqMhz := by
  unfold hpTick; split <;> simp

@[simp] theorem hpTick_lastCalPll  (s : State) : (hpTick  s).lastCalPll = s.lastCalPll := by
  unfold hpTick; split <;> simp

@[simp] theorem hpTick_fault  (s : State) : (hpTick  s).fault = s.fault := by
  unfold hpTick; split <;> simp

@[simp] theorem hpTick_trace  (s : State) : (hpTick  s).trace = s.trace := by
  unfold hpTick; split <;> simp

@[simp] theorem hpTick_env  (s : State) : (hpTick  s).env = s.env := by
  unfold hpTick; split <;> simp

@[simp] theorem hpTick_mboxAt  (s : State) (d : Core) : mboxAt (hpTick  s) d = mboxAt s d := by
  simp [mboxAt]

@[simp] theorem hpTick_pllAt  (s : State) (j : PllId) : pllAt (hpTick  s) j = pllAt s j := by
  simp [pllAt]

/-! ### `hpDone` -/

@[simp] theorem hpDone_cfg  (s : State) : (hpDone  s).cfg = s.cfg := by
  unfold hpDone; split <;> simp

@[simp] theorem hpDone_mbox  (s : State) : (hpDone  s).mbox = s.mbox := by
  unfold hpDone; split <;> simp

@[simp] theorem hpDone_seq  (s : State) : (hpDone  s).seq = s.seq := by
  unfold hpDone; split <;> simp

@[simp] theorem hpDone_clk  (s : State) : (hpDone  s).clk = s.clk := by
  unfold hpDone; split <;> simp

@[simp] theorem hpDone_plls  (s : State) : (hpDone  s).plls = s.plls := by
  unfold hpDone; split <;> simp

@[simp] theorem hpDone_curPllFreqMhz  (s : State) : (hpDone  s).curPllFreqMhz = s.curPllFreqMhz := by
  unfold hpDone; split <;> simp

@[simp] theorem hpDone_lastCalPll  (s : State) : (hpDone  s).lastCalPll = s.lastCalPll := by
  unfold hpDone; split <;> simp

@[simp] theorem hpDone_fault  (s : State) : (hpDone  s).fault = s.fault := by
  unfold hpDone; split <;> simp

@[simp] theorem hpDone_trace  (s : State) : (hpDone  s).trace = s.trace := by
  unfold hpDone; split <;> simp

@[simp] theorem hpDone_env  (s : State) : (hpDone  s).env = s.env := by
  unfold hpDone; split <;> simp

@[simp] theorem hpDone_mboxAt  (s : State) (d : Core) : mboxAt (hpDone  s) d = mboxAt s d := by
  simp [mboxAt]

@[simp] theorem hpDone_pllAt  (s : State) (j : PllId) : pllAt (hpDone  s) j = pllAt s j := by
  simp [pllAt]

/-! ### `setConsumers` -/

@[simp] theorem setConsumers_cfg (id : PllId) (n : Word) (s : State) : (setConsumers id n s).cfg = s.cfg := rfl

@[simp] theorem setConsumers_mbox (id : PllId) (n : Word) (s : State) : (setConsumers id n s).mbox = s.mbox := rfl

@[simp] theorem setConsumers_seq (id : PllId) (n : Word) (s : State) : (setConsumers id n s).seq = s.seq := rfl

@[simp] theorem setConsumers_clk (id : PllId) (n : Word) (s : State) : (setConsumers id n s).clk = s.clk := rfl

@[simp] theorem setConsumers_curPllFreqMhz (id : PllId) (n : Word) (s : State) : (setConsumers id n s).curPllFreqMhz = s.curPllFreqMhz := rfl

@[simp] theorem setConsumers_lastCalPll (id : PllId) (n : Word) (s : State) : (setConsumers id n s).lastCalPll = s.lastCalPll := rfl

@[simp] theorem setConsumers_slp (id : PllId) (n : Word) (s : State) : (setConsumers id n s).slp = s.slp := rfl

@[simp] theorem setConsumers_fault (id : PllId) (n : Word) (s : State) : (setConsumers id n s).fault = s.fault := rfl

@[simp] theorem setConsumers_trace (id : PllId) (n : Word) (s : State) : (setConsumers id n s).trace = s.trace := rfl

@[simp] theorem setConsumers_env (id : PllId) (n : Word) (s : State) : (setConsumers id n s).env = s.env := rfl

@[simp] theorem setConsumers_mboxAt (id : PllId) (n : Word) (s : State) (d : Core) : mboxAt (setConsumers id n s) d = mboxAt s d := by
  simp [mboxAt]

/-! ### What the effects do to ClockTree -/

@[simp] theorem doApplyWrite_clk (t : ClockConfig) (f : RegField) (s : State) :
    (doApplyWrite t f s).clk = { s.clk with hw := hwWrite s.cfg t s.clk.hw f } := rfl

@[simp] theorem doApplyEnd_clk (t : ClockConfig) (s : State) :
    (doApplyEnd t s).clk = { s.clk with cur := t, state := stateOf t.source } := rfl

@[simp] theorem doStepFive_clk (a b : Word) (s : State) :
    (doStepFive a b s).clk = { s.clk with ticksPerUs := b, cycleCounter := rescale s.clk.cycleCounter a b } := rfl

@[simp] theorem doApplyWrite_trace (t : ClockConfig) (f : RegField) (s : State) :
    (doApplyWrite t f s).trace = s.trace ++ [.w f (applyValue s.cfg t f)] := rfl

/-! ### What the effects do to the PLL controllers -/

theorem pllAt_pllEnableBody (id j : PllId) (s : State) :
    pllAt (pllEnableBody id s) j = if j = id ∧ id.toNat < 8 then { pllAt s id with enabled := true } else pllAt s j := by
  simp [pllEnableBody, pllAt_setPll]

theorem forgetCurPll_curPllFreqMhz (id : PllId) (s : State) :
    (forgetCurPll id s).curPllFreqMhz = if s.lastCalPll = id then 0 else s.curPllFreqMhz := by
  unfold forgetCurPll; split <;> rfl

theorem pllAt_pllDisableBody (id j : PllId) (s : State) :
    pllAt (pllDisableBody id s) j =
      if j = id ∧ id.toNat < 8 then
        { pllAt s id with enabled := false, configuredFreqMhz := 0, calState := .calIdle }
      else pllAt s j := by
  simp [pllDisableBody, pllAt_setPll]

theorem pllDisableBody_curPllFreqMhz (id : PllId) (s : State) :
    (pllDisableBody id s).curPllFreqMhz = if s.lastCalPll = id then 0 else s.curPllFreqMhz := by
  simp only [pllDisableBody, forgetCurPll_curPllFreqMhz]; rfl

theorem pllAt_doCalDivide (id j : PllId) (x t : Word) (s : State) :
    pllAt (doCalDivide id x t s) j =
      if j = id ∧ id.toNat < 8 then { pllAt s id with configuredFreqMhz := 0 } else pllAt s j := by
  simp [doCalDivide, pllAt_setPll]

theorem doCalDivide_curPllFreqMhz (id : PllId) (x t : Word) (s : State) :
    (doCalDivide id x t s).curPllFreqMhz = if s.lastCalPll = id then 0 else s.curPllFreqMhz := by
  simp only [doCalDivide, forgetCurPll_curPllFreqMhz]; rfl

theorem pllAt_doCalStart (id j : PllId) (s : State) :
    pllAt (doCalStart id s) j =
      if j = id ∧ id.toNat < 8 then { pllAt s id with calState := .calStarted, calPollsLeft := s.cfg.calTimeoutPolls }
      else pllAt s j := by
  simp [doCalStart, pllAt_setPll]

theorem pllAt_calPolled (id j : PllId) (b : Bool) (s : State) :
    pllAt (calPolled id b s) j =
      if j = id ∧ id.toNat < 8 then { pllAt s id with calPollsLeft := (pllAt s id).calPollsLeft - 1 } else pllAt s j := by
  simp [calPolled, pllAt_setPll]

theorem pllAt_doCalStop (id j : PllId) (t : Word) (s : State) :
    pllAt (doCalStop id t s) j =
      if j = id ∧ id.toNat < 8 then { pllAt s id with calState := .calIdle, configuredFreqMhz := t } else pllAt s j := by
  simp [doCalStop, pllAt_setPll]

@[simp] theorem doCalStop_curPllFreqMhz (id : PllId) (t : Word) (s : State) : (doCalStop id t s).curPllFreqMhz = t := rfl

@[simp] theorem doCalStop_lastCalPll (id : PllId) (t : Word) (s : State) : (doCalStop id t s).lastCalPll = id := rfl

theorem pllAt_setConsumers (id j : PllId) (n : Word) (s : State) :
    pllAt (setConsumers id n s) j =
      if j = id ∧ id.toNat < 8 then { pllAt s id with consumerCount := n } else pllAt s j := by
  simp [setConsumers, pllAt_setPll]

end Sys2Proof.Machine
end

