-- ==== Sys2Proof/Laws/Step.lean ====
section
/-! SUPPORT. What an acceptance, a micro-step and a step can do, each said once, so that a proof about every step needs no
unfolding of `exec` or of `runMicro`. -/

namespace Sys2Proof.Machine

/-- Taking a choice changes the environment's part only. -/
theorem choiceTaken_eq (s : State) : ∃ e, choiceTaken s = setEnv e s := by
  unfold choiceTaken; split <;> exact ⟨_, rfl⟩

/-- With which acceptance effect and which script an op can start running. -/
inductive StartOf (s : State) : Instr → (State → State) → List Micro → Prop where
  | clock (i : Instr) (k : ClockConfig) (h : clockTarget s.cfg i = some k) :
      StartOf s i discardParams [.setConfig k, .finish .plain]
  | enable (id : PllId) (h : pllIdOk s.cfg id = true) :
      StartOf s (.pllEnable id) (fun s => s) [.pllEnable id, .finish .plain]
  | cal (id : PllId) (x g : Word) (h : pllIdOk s.cfg id = true) (hx : 1 ≤ x.toNat ∧ 1 ≤ g.toNat)
      (he : (pllAt s id).enabled = true) (hc : s.clk.cur.source = .crystal) :
      StartOf s (.pllCfgCal id x g) (fun s => s)
        [.calDivide id x g, .calStart id, .calPoll id none, .calStop id g, .finish .plain]
  | disable (id : PllId) (h : pllIdOk s.cfg id = true) (hc : s.clk.cur.source ≠ .pll id) :
      StartOf s (.pllDisable id) (fun s => s) [.pllDisable id, .finish .plain]
  | build (mf pd adj : Word) : StartOf s (.buildParams mf pd adj) (fun s => s) [.buildParams mf pd adj, .finish .budget]
  | program : StartOf s .program (fun s => s) [.program, .finish .plain]
  | enter (d : Bool) (w r : Word) : StartOf s (.enter d w r) (fun s => s) (enterScript d w r ++ [.finish .sleepResult])
  | regNo (i : Instr) : StartOf s i (fun s => s) [.finish .plain]
  | reg (i : Instr) (b : Bool) : StartOf s i (fun s => s) [.regdmaWrite b, .finish .plain]
  | sleep (d : Bool) (w r mf pd adj : Word) :
      StartOf s (.enterSleep d w r mf pd adj) saveConfig
        ([.setConfig (xtalNative s.cfg), .buildParams mf pd adj, .program] ++ enterScript d w r ++
          [.restoreSaved, .finish .sleepResult])

/-- Everything an acceptance can do: turn the op away, leave it pending, start it, or run an immediate body. -/
theorem exec_cases (i : Instr) (s t : State) (h : exec i s = .next t) :
    (∃ k, t = endOp s.env.picked k s) ∨ t = s ∨
    (isSequenced i = true ∧ Ready s ∧ ∃ prep script, StartOf s i prep script ∧ t = start script (prep s)) ∨
    (isSequenced i = false ∧ s.fault.halted = false ∧
      ((∃ f k, i = .resolve f ∧ t = endOp s.env.picked .ok (setResConfig s.env.picked k s)) ∨
       (i = .getCpuFreq ∧ t = endOp s.env.picked .ok (setResConfig s.env.picked s.clk.cur s)) ∨
       (∃ id, i = .pllAddConsumer id ∧ (pllAt s id).consumerCount.toNat < 2 ^ 32 - 1 ∧
        t = endOp s.env.picked .ok (setConsumers id ((pllAt s id).consumerCount + 1) s)) ∨
       (∃ id, i = .pllRemoveConsumer id ∧ (pllAt s id).consumerCount ≠ 0 ∧
        t = endOp s.env.picked .ok (setConsumers id ((pllAt s id).consumerCount - 1) s)) ∨
       (∃ id, i = .pllRemoveConsumer id ∧ (pllAt s id).consumerCount = 0 ∧
        t = raiseFatal s.env.picked false .consumerAccountingViolation (pllFaultInfo id 2) s) ∨
       (∃ k p, i = .cfgPwrModeDefaults k ∧ t = endOp s.env.picked .ok (setResMode s.env.picked p s)))) := by
  cases i with
  | setCpuFreq f =>
    simp only [exec, execSetCpuFreq] at h
    rcases sequenced_cases _ _ _ s with ⟨k, hk⟩ | ⟨_, hk⟩ | ⟨h1, h2, h3, hk⟩ <;> rw [hk] at h <;> cases h
    · exact .inl ⟨_, rfl⟩
    · exact .inr (.inl rfl)
    · cases hr : resolve s.cfg f with
      | none => simp [hr, firstFailing_cons] at h3
      | some k => exact .inr (.inr (.inl ⟨rfl, ⟨h1, h2⟩, _, _, .clock _ k hr, rfl⟩))
  | setConfig a b c d =>
    simp only [exec, execSetConfig] at h
    rcases sequenced_cases _ _ _ s with ⟨k, hk⟩ | ⟨_, hk⟩ | ⟨h1, h2, h3, hk⟩ <;> rw [hk] at h <;> cases h
    · exact .inl ⟨_, rfl⟩
    · exact .inr (.inl rfl)
    · cases hr : decodeValidConfig s.cfg a b c d with
      | none => simp [hr, firstFailing_cons] at h3
      | some k => exact .inr (.inr (.inl ⟨rfl, ⟨h1, h2⟩, _, _, .clock _ k hr, rfl⟩))
  | enterSleep a b c d e f =>
    simp only [exec, execEnterSleep] at h
    rcases sequenced_cases _ _ _ s with ⟨k, hk⟩ | ⟨_, hk⟩ | ⟨h1, h2, h3, hk⟩ <;> rw [hk] at h <;> cases h
    · exact .inl ⟨_, rfl⟩
    · exact .inr (.inl rfl)
    · exact .inr (.inr (.inl ⟨rfl, ⟨h1, h2⟩, _, _, .sleep _ _ _ _ _ _, rfl⟩))
  | pllEnable a =>
    simp only [exec, execPllEnable] at h
    rcases sequenced_cases _ _ _ s with ⟨k, hk⟩ | ⟨_, hk⟩ | ⟨h1, h2, h3, hk⟩ <;> rw [hk] at h <;> cases h
    · exact .inl ⟨_, rfl⟩
    · exact .inr (.inl rfl)
    · rw [firstFailing_eq_none] at h3
      exact .inr (.inr (.inl ⟨rfl, ⟨h1, h2⟩, _, _, .enable _ (by simpa using h3), rfl⟩))
  | pllCfgCal a b c =>
    simp only [exec, execPllCfgCal] at h
    rcases sequenced_cases _ _ _ s with ⟨k, hk⟩ | ⟨_, hk⟩ | ⟨h1, h2, h3, hk⟩ <;> rw [hk] at h <;> cases h
    · exact .inl ⟨_, rfl⟩
    · exact .inr (.inl rfl)
    · rw [firstFailing_eq_none] at h3
      simp at h3
      exact .inr (.inr (.inl ⟨rfl, ⟨h1, h2⟩, _, _, .cal _ _ _ h3.1 h3.2.1 h3.2.2.1 h3.2.2.2, rfl⟩))
  | pllDisable a =>
    simp only [exec, execPllDisable] at h
    rcases sequenced_cases _ _ _ s with ⟨k, hk⟩ | ⟨_, hk⟩ | ⟨h1, h2, h3, hk⟩ <;> rw [hk] at h <;> cases h
    · exact .inl ⟨_, rfl⟩
    · exact .inr (.inl rfl)
    · rw [firstFailing_eq_none] at h3
      simp at h3
      exact .inr (.inr (.inl ⟨rfl, ⟨h1, h2⟩, _, _, .disable _ h3.1 h3.2, rfl⟩))
  | buildParams a b c =>
    simp only [exec, execBuildParams] at h
    rcases sequenced_cases _ _ _ s with ⟨k, hk⟩ | ⟨_, hk⟩ | ⟨h1, h2, h3, hk⟩ <;> rw [hk] at h <;> cases h
    · exact .inl ⟨_, rfl⟩
    · exact .inr (.inl rfl)
    · exact .inr (.inr (.inl ⟨rfl, ⟨h1, h2⟩, _, _, .build _ _ _, rfl⟩))
  | program =>
    simp only [exec, execProgram] at h
    rcases sequenced_cases _ _ _ s with ⟨k, hk⟩ | ⟨_, hk⟩ | ⟨h1, h2, h3, hk⟩ <;> rw [hk] at h <;> cases h
    · exact .inl ⟨_, rfl⟩
    · exact .inr (.inl rfl)
    · exact .inr (.inr (.inl ⟨rfl, ⟨h1, h2⟩, _, _, .program, rfl⟩))
  | enter a b c =>
    simp only [exec, execEnter] at h
    rcases sequenced_cases _ _ _ s with ⟨k, hk⟩ | ⟨_, hk⟩ | ⟨h1, h2, h3, hk⟩ <;> rw [hk] at h <;> cases h
    · exact .inl ⟨_, rfl⟩
    · exact .inr (.inl rfl)
    · exact .inr (.inr (.inl ⟨rfl, ⟨h1, h2⟩, _, _, .enter _ _ _, rfl⟩))
  | regdmaEn =>
    simp only [exec, execRegdmaEn] at h
    rcases sequenced_cases _ _ _ s with ⟨k, hk⟩ | ⟨_, hk⟩ | ⟨h1, h2, h3, hk⟩ <;> rw [hk] at h <;> cases h
    · exact .inl ⟨_, rfl⟩
    · exact .inr (.inl rfl)
    · refine .inr (.inr (.inl ⟨rfl, ⟨h1, h2⟩, fun s => s, _, ?_, rfl⟩))
      cases s.slp.regdmaEnabled
      · exact .reg _ _
      · exact .regNo _
  | regdmaDis =>
    simp only [exec, execRegdmaDis] at h
    rcases sequenced_cases _ _ _ s with ⟨k, hk⟩ | ⟨_, hk⟩ | ⟨h1, h2, h3, hk⟩ <;> rw [hk] at h <;> cases h
    · exact .inl ⟨_, rfl⟩
    · exact .inr (.inl rfl)
    · refine .inr (.inr (.inl ⟨rfl, ⟨h1, h2⟩, fun s => s, _, ?_, rfl⟩))
      cases s.slp.regdmaEnabled
      · exact .regNo _
      · exact .reg _ _
  | resolve f =>
    simp only [exec, execResolve] at h
    rcases immediate_cases _ _ s with ⟨k, hk⟩ | ⟨h1, h2, hk⟩ <;> rw [hk] at h <;> cases h
    · exact .inl ⟨_, rfl⟩
    · cases hr : resolve s.cfg f with
      | none => right; left; simp
      | some k => exact .inr (.inr (.inr ⟨rfl, h1, .inl ⟨f, k, rfl, by simp⟩⟩))
  | getCpuFreq =>
    simp only [exec, execGetCpuFreq] at h
    rcases immediate_cases _ _ s with ⟨k, hk⟩ | ⟨h1, h2, hk⟩ <;> rw [hk] at h <;> cases h
    · exact .inl ⟨_, rfl⟩
    · exact .inr (.inr (.inr ⟨rfl, h1, by simp⟩))
  | pllAddConsumer id =>
    simp only [exec, execPllAddConsumer] at h
    rcases immediate_cases _ _ s with ⟨k, hk⟩ | ⟨h1, h2, hk⟩ <;> rw [hk] at h <;> cases h
    · exact .inl ⟨_, rfl⟩
    · rw [firstFailing_eq_none] at h2
      have := h2 _ (List.mem_cons_of_mem _ (List.mem_singleton_self _))
      exact .inr (.inr (.inr ⟨rfl, h1, .inr (.inr (.inl ⟨id, rfl, by simpa using this, rfl⟩))⟩))
  | pllRemoveConsumer id =>
    simp only [exec, execPllRemoveConsumer] at h
    rcases immediate_cases _ _ s with ⟨k, hk⟩ | ⟨h1, h2, hk⟩ <;> rw [hk] at h <;> cases h
    · exact .inl ⟨_, rfl⟩
    · refine .inr (.inr (.inr ⟨rfl, h1, .inr (.inr (.inr ?_))⟩))
      by_cases hc : (pllAt s id).consumerCount = 0
      · exact .inr (.inl ⟨id, rfl, hc, by simp [hc]⟩)
      · exact .inl ⟨id, rfl, hc, by rw [if_neg hc]⟩
  | cfgPwrModeDefaults k =>
    simp only [exec, execCfgPwrModeDefaults] at h
    rcases immediate_cases _ _ s with ⟨k, hk⟩ | ⟨h1, h2, hk⟩ <;> rw [hk] at h <;> cases h
    · exact .inl ⟨_, rfl⟩
    · exact .inr (.inr (.inr ⟨rfl, h1, .inr (.inr (.inr (.inr (.inr ⟨_, _, rfl, rfl⟩))))⟩))

/-- What a sequencer action can do: nothing, or the resolved head of the script. -/
theorem sequencerStep_cases (a : Bool) (s : State) :
    sequencerStep a s = s ∨
    ∃ m rest, s.seq.busy = true ∧ s.fault.halted = false ∧ resolveHead 4 s s.seq.script = m :: rest ∧
      sequencerStep a s = runMicro m rest a s := by
  unfold sequencerStep
  split
  · rename_i h
    split
    · exact .inl rfl
    · rename_i m rest hr; exact .inr ⟨m, rest, h.1, h.2, hr, rfl⟩
  · exact .inl rfl

/-- A property that every kind of action keeps is kept by every step. -/
theorem step_keeps (Inv : State → Prop)
    (henv : ∀ s e, Inv s → Inv (setEnv e s))
    (hreset : ∀ s, Inv s → Inv (resetBlock s))
    (hcyc : ∀ s n, Inv s → Inv (setClk { s.clk with cycleCounter := n } s))
    (hwrite : ∀ s off v, Inv s → Inv (writeReg off v s))
    (hend : ∀ s c k, Inv s → (mboxAt s c).pending = true → Inv (endOp c k s))
    (hexec : ∀ s i t, Inv s → (mboxAt s s.env.picked).pending = true → exec i s = .next t → Inv t)
    (hseq : ∀ s a, Inv s → Inv (sequencerStep a s))
    (hwt : ∀ s, Inv s → Inv (wakeTrigger s)) (hlt : ∀ s, Inv s → Inv (lpTick s)) (hld : ∀ s, Inv s → Inv (lpDone s))
    (hht : ∀ s, Inv s → Inv (hpTick s)) (hhd : ∀ s, Inv s → Inv (hpDone s))
    (s t : State) (hs : Inv s) (h : step s = .next t) : Inv t := by
  unfold step at h
  obtain ⟨e, he⟩ := choiceTaken_eq s
  rw [he] at h
  have hu := henv s e hs
  generalize setEnv e s = u at h hu
  generalize nextAction s = a at h
  cases a <;> simp only [act] at h
  case hostWrite addr b v =>
    unfold hostWrite at h; split at h
    · cases h; split
      · exact hwrite _ _ _ hu
      · exact hu
    · cases h
  case hostRead addr b =>
    unfold hostRead at h; split at h
    · cases h; exact henv _ _ hu
    · cases h
  case accept c =>
    unfold acceptCommand at h
    split at h
    · rename_i hc
      split at h
      · exact hexec _ _ _ (henv u { u.env with picked := c } hu) (by simpa using hc.2) h
      · cases h; exact hend _ _ _ (henv _ _ hu) (by simpa using hc.2)
    · cases h; exact hu
  all_goals cases h
  · exact hseq _ _ hu
  · exact hwt _ hu
  · exact hlt _ hu
  · exact hld _ hu
  · exact hht _ hu
  · exact hhd _ hu
  · exact henv _ _ hu
  · exact henv _ _ hu
  · exact hcyc _ _ hu
  · exact hreset _ hu

/-- What a host write can change. -/
theorem writeReg_frame (off : Nat) (v : Word) (s : State) :
    ∃ mb z, writeReg off v s = { s with mbox := mb, slp := z } ∧
      ∃ p b l, z = { s.slp with pmt := p, bkp := b, lpClkFreqHz := l } := by
  unfold writeReg
  dsimp only
  repeat' split
  all_goals first
    | exact ⟨s.mbox, s.slp, rfl, s.slp.pmt, s.slp.bkp, s.slp.lpClkFreqHz, rfl⟩
    | exact ⟨_, s.slp, rfl, s.slp.pmt, s.slp.bkp, s.slp.lpClkFreqHz, rfl⟩
    | exact ⟨s.mbox, _, rfl, s.slp.pmt, s.slp.bkp, _, rfl⟩
    | exact ⟨s.mbox, _, rfl, _, s.slp.bkp, s.slp.lpClkFreqHz, rfl⟩
    | exact ⟨s.mbox, _, rfl, s.slp.pmt, _, s.slp.lpClkFreqHz, rfl⟩

/-- Which micro-steps touch ClockTree. -/
theorem runMicro_clk (m : Micro) (rest : List Micro) (a : Bool) (s : State) :
    (runMicro m rest a s).clk = (match m with
      | .applyWrite t f => (doApplyWrite t f s).clk
      | .applyEnd t => (doApplyEnd t s).clk
      | .stepFive x y => (doStepFive x y s).clk
      | .calPoll id o => (doCalPoll id o rest a s).clk
      | _ => s.clk) := by
  cases m <;> simp [runMicro]
  · unfold doPllDisable; split <;> simp
  · unfold doPollStatus; split <;> simp
  · unfold doPollAux; split <;> simp

/-- A calibration poll touches ClockTree at most by `step5`. -/
theorem doCalPoll_clk (id : PllId) (o : Option Word) (rest : List Micro) (a : Bool) (s : State) :
   (doCalPoll id o rest a s).clk = s.clk ∨
   ∃ f, (doCalPoll id o rest a s).clk = (doStepFive f s.clk.cur.freqMhz s).clk := by
  unfold doCalPoll
  simp only
  split
  · left; simp
  · split
    · unfold calTimeout
      cases o with
      | none => left; simp
      | some f => right; exact ⟨f, by simp [doStepFive]⟩
    · left; simp

/-- How a micro-step goes on: with the rest of a script, or with a fatal fault of the owner. -/
theorem runMicro_shape (m : Micro) (rest : List Micro) (a : Bool) (s : State) :
    runMicro m rest a s = s ∨
      ∃ u, u.mbox = s.mbox ∧ u.seq.busy = s.seq.busy ∧ u.seq.owner = s.seq.owner ∧ u.fault = s.fault ∧
      ((∃ l, runMicro m rest a s = advance l u) ∨ ∃ k info, runMicro m rest a s = raiseFatal s.seq.owner true k info u) := by
  cases m
  case pllDisable id =>
    right
    simp only [runMicro, doPllDisable]
    split
    · exact ⟨_, by simp, by simp, by simp, by simp, .inl ⟨_, rfl⟩⟩
    · exact ⟨s, rfl, rfl, rfl, rfl, .inr ⟨_, _, rfl⟩⟩
  case calPoll id o =>
    right
    simp only [runMicro, doCalPoll]
    split
    · exact ⟨_, by simp, by simp, by simp, by simp, .inl ⟨_, rfl⟩⟩
    · split
      · unfold calTimeout
        cases o with
        | none =>
          exact ⟨setPll id { pllAt (calPolled id a s) id with calState := .calFailed } (calPolled id a s), rfl, rfl, rfl, rfl,
            .inr ⟨_, _, rfl⟩⟩
        | some f =>
          exact ⟨doStepFive f s.clk.cur.freqMhz
            (setPll id { pllAt (calPolled id a s) id with calState := .calFailed } (calPolled id a s)), rfl, rfl, rfl, rfl,
            .inr ⟨_, _, rfl⟩⟩
      · exact ⟨_, by simp, by simp, by simp, by simp, .inl ⟨_, rfl⟩⟩
  case pollStatus =>
    right
    simp only [runMicro, doPollStatus]
    split
    · exact ⟨_, by simp [setSeq, setSlp, emit], by simp, by simp, by simp, .inl ⟨_, rfl⟩⟩
    · exact ⟨_, by simp, by simp, by simp, by simp, .inl ⟨_, rfl⟩⟩
  case pollAux =>
    right
    simp only [runMicro, doPollAux]
    exact ⟨_, by simp, by simp, by simp, by simp, .inl ⟨_, rfl⟩⟩
  case setProgrammed => exact .inr ⟨s, rfl, rfl, rfl, rfl, .inl ⟨_, rfl⟩⟩
  case finish => exact .inr ⟨s, rfl, rfl, rfl, rfl, .inl ⟨_, rfl⟩⟩
  case setConfig => exact .inl rfl
  case restoreSaved => exact .inl rfl
  case bringUp => exact .inl rfl
  case apply => exact .inl rfl
  case program => exact .inl rfl
  all_goals exact .inr ⟨_, by simp, by simp, by simp, by simp, .inl ⟨_, rfl⟩⟩

/-- The end of a micro-step: the op goes on, or it has ended and its mailbox is at rest. -/
theorem advance_shape (l : List Micro) (u : State) :
   (∃ l', (advance l u).mbox = u.mbox ∧ (advance l u).seq = { u.seq with script := l' }) ∨
   ((advance l u).seq.busy = false ∧ (advance l u).seq.script = [] ∧ (advance l u).seq.owner = u.seq.owner ∧
     (∀ d, d ≠ u.seq.owner → mboxAt (advance l u) d = mboxAt u d) ∧
     (mboxAt (advance l u) u.seq.owner).pending = false ∧ (mboxAt (advance l u) u.seq.owner).running = false) := by
  obtain ⟨s', hs', h⟩ := advance_cases l u
  have hm : s'.mbox = u.mbox := by rcases hs' with rfl | rfl <;> rfl
  have hq : s'.seq = u.seq := by rcases hs' with rfl | rfl <;> rfl
  rcases h with ⟨l', _, e⟩ | ⟨e, h⟩
  · left; exact ⟨l', by rw [e]; exact hm, by rw [e]; rfl⟩
  · right
    rw [h]
    refine ⟨by simp, by simp, by simp [hq], ?_, ?_, ?_⟩
    · intro d hd
      obtain ⟨r, hr⟩ := mboxAt_finishOp e s' d
      rw [hr, hq, if_neg hd]; simp [mboxAt, hm]
    · obtain ⟨r, hr⟩ := mboxAt_finishOp e s' u.seq.owner
      rw [hr, hq]; simp
    · obtain ⟨r, hr⟩ := mboxAt_finishOp e s' u.seq.owner
      rw [hr, hq]; simp

end Sys2Proof.Machine
end

