-- ==== Sys2Proof/Laws/Bus.lean ====
section
/-! SUPPORT. Lemmas about `apply`, the instants of a move and the readiness of a script (40_clocktree.md R85 to R90): what the
definitions of Safety.lean on the bus limits give, so that no proof unfolds `applyOrder`, `replayPoint` or `setConfigScript`. -/

open Sys2Proof

namespace Sys2Proof.Machine

/-- One view knows no more than another: what it has on is on there, what it has configured is so there. -/
def viewLe (v w : PllView) : Prop := ∀ id, ((v id).1 = true → (w id).1 = true) ∧ ((v id).2 ≠ 0 → (w id).2 = (v id).2)

theorem viewLe_refl (v : PllView) : viewLe v v := fun _ => ⟨id, fun _ => rfl⟩

/-- A configuration that runs in a view runs in one that knows more. -/
theorem runsIn_mono {v w : PllView} {k : ClockConfig} (h : viewLe v w) (hk : k.sourceFreqMhz ≠ 0) (hr : runsIn v k) :
    runsIn w k := by
  intro q hq
  have := h q
  rw [hr q hq] at this
  exact Prod.ext (this.1 rfl) (this.2 hk)

/-- A valid configuration has a source frequency (40_clocktree.md R81). -/
theorem sourceFreq_ne_zero {cfg : Cfg} {k : ClockConfig} (h : validConfig cfg k = true) : k.sourceFreqMhz ≠ 0 := by
  intro e; simp [validConfig, e] at h

theorem setView_mono {v w : PllView} (h : viewLe v w) (id : PllId) (x y : Bool × Word)
    (hx : (x.1 = true → y.1 = true) ∧ (x.2 ≠ 0 → y.2 = x.2)) : viewLe (setView v id x) (setView w id y) := by
  intro j; unfold setView; by_cases e : j = id
  · simpa [e] using hx
  · simpa [e] using h j

theorem viewAfter_mono {v w : PllView} (h : viewLe v w) (saved : ClockConfig) (m : Micro) :
    viewLe (viewAfter saved v m) (viewAfter saved w m) := by
  cases m <;> simp only [viewAfter] <;> try exact h
  · exact viewLe_refl _
  · exact viewLe_refl _
  · split
    · exact setView_mono h _ _ _ ⟨id, fun _ => rfl⟩
    · exact h
  · exact setView_mono h _ _ _ ⟨id, fun _ => rfl⟩
  · exact setView_mono h _ _ _ ⟨fun _ => rfl, (h _).2⟩
  · exact setView_mono h _ _ _ ⟨id, fun _ => rfl⟩
  · exact setView_mono h _ _ _ ⟨(h _).1, fun x => absurd rfl x⟩
  · exact setView_mono h _ _ _ ⟨(h _).1, fun _ => rfl⟩

theorem busItemOk_mono {cfg cur} {v w : PllView} (h : viewLe v w) {m : Micro} (hm : busItemOk cfg cur v m) :
    busItemOk cfg cur w m := by
  cases m <;> simp only [busItemOk] at * <;> try exact hm
  · exact ⟨hm.1, fun e => runsIn_mono h (sourceFreq_ne_zero hm.1) (hm.2 e)⟩
  · exact ⟨hm.1, runsIn_mono h (sourceFreq_ne_zero hm.1) hm.2⟩

/-- A script that finds what it needs finds it where more is known. -/
theorem busReady_mono {cfg saved} (l : List Micro) {cur} {v w : PllView} (h : viewLe v w) (hl : busReady cfg saved cur v l) :
    busReady cfg saved cur w l := by
  induction l generalizing cur v w with
  | nil => trivial
  | cons m rest ih => exact ⟨busItemOk_mono h hl.1, ih (viewAfter_mono h saved m) hl.2⟩

theorem viewLe_of_eq {v w : PllView} (h : v = w) : viewLe v w := h ▸ viewLe_refl v

/-- On a well-formed chip `XTAL_NATIVE` is valid (40_clocktree.md R83). -/
theorem xtalNative_valid {cfg : Cfg} (h : cfgOk cfg = true) : validConfig cfg (xtalNative cfg) = true := by
  simp only [cfgOk, Bool.and_eq_true, decide_eq_true_eq] at h
  obtain ⟨⟨⟨⟨⟨⟨⟨⟨⟨⟨h1, _⟩, _⟩, _⟩, h5⟩, _⟩, _⟩, _⟩, _⟩, _⟩, _⟩ := h
  have hd : divRound cfg cfg.xtalFreqMhz.toNat (intFraction 1) = some cfg.xtalFreqMhz.toNat := by
    simp only [divRound, fractionValue, intFraction]
    cases cfg.divRound <;> (simp [Nat.mod_one]; try omega)
  simp only [validConfig, xtalNative, hd, legalIntDiv]
  simp [h1, fractionOk, intFraction]
  simpa using h5

/-- The crystal branch of `resolve` gives a valid configuration (R82). -/
theorem resolveCrystal_valid {cfg : Cfg} {f : Word} {k : ClockConfig} (hk : resolveCrystal cfg f = some k) :
    validConfig cfg k = true := by
  unfold resolveCrystal at hk; simp only at hk
  split at hk
  · rename_i hc
    cases hk
    obtain ⟨h1, h2, h3, h4, h5⟩ := hc
    have hx : 1 ≤ cfg.xtalFreqMhz.toNat := by omega
    have hd : (BitVec.ofNat 8 (cfg.xtalFreqMhz.toNat / f.toNat)).toNat = cfg.xtalFreqMhz.toNat / f.toNat := by
      simp; omega
    have hq : 1 ≤ cfg.xtalFreqMhz.toNat / f.toNat := Nat.div_pos h2 (by omega)
    have hf : fractionOk cfg (intFraction (BitVec.ofNat 8 (cfg.xtalFreqMhz.toNat / f.toNat))) = true := by
      simp only [fractionOk, intFraction, hd]; simp [hq]
    simp only [validConfig, legalIntDiv, hf, h5]
    simp only [intFraction, hd]
    simp [h1, hx]
    simpa using h4
  · cases hk

/-- The target of a clock op is valid (R90, R94). -/
theorem clockTarget_valid {s : State} {i k} (hc : cfgOk s.cfg = true) (h : clockTarget s.cfg i = some k) :
    validConfig s.cfg k = true := by
  have ht : ∀ e ∈ s.cfg.pllTable, pllEntryOk s.cfg e = true := by
    simp only [cfgOk, Bool.and_eq_true, List.all_eq_true] at hc; exact hc.2
  cases i <;> simp only [clockTarget] at h <;> try cases h
  · unfold resolve at h
    split at h
    · rename_i k' hk; cases h
      exact resolveCrystal_valid hk
    · split at h
      · cases h
      · rename_i _ _ _ hf
        have hm := List.mem_of_find?_eq_some h
        have he := List.find?_some h
        have := ht _ hm
        simp only [decide_eq_true_eq] at he
        unfold pllEntryOk at this
        unfold validConfig
        cases hs : k.source <;> simp only [hs] at this ⊢ <;> simp_all [pllIdOk]
        exact Nat.one_le_iff_ne_zero.2 (fun e => hf (BitVec.eq_of_toNat_eq (by simpa using e)))
  · unfold decodeValidConfig at h; split at h
    · split at h
      · cases h; assumption
      · cases h
    · cases h

/-- The instant after a list of writes: a field has the target's value exactly when it is in the list. -/
theorem foldl_pointWrite (cfg : Cfg) (t : ClockConfig) (l : List RegField) (p : ClockPoint) :
    (l.foldl (pointWrite cfg t) p).srcMhz = (if .muxSel ∈ l then t.sourceFreqMhz else p.srcMhz) ∧
    (l.foldl (pointWrite cfg t) p).cpuDiv = (if .div .cpu ∈ l then t.divider else p.cpuDiv) ∧
    ∀ b, busDiv (l.foldl (pointWrite cfg t) p).busDiv b =
      (if .div b ∈ l then busDiv (busDivs cfg t) b else busDiv p.busDiv b) := by
  induction l generalizing p with
  | nil => simp
  | cons f l ih =>
    obtain ⟨h1, h2, h3⟩ := ih (pointWrite cfg t p f)
    simp only [List.foldl_cons]
    refine ⟨h1.trans ?_, h2.trans ?_, fun b => (h3 b).trans ?_⟩
    · cases f <;> simp [pointWrite]
      rename_i b; cases b <;> simp
    · cases f <;> simp [pointWrite]
      rename_i b; cases b <;> simp
    · cases f <;> simp [pointWrite]
      rename_i c; cases c <;> cases b <;> simp [setBusDiv, busDiv]

/-- The instant after `n` writes of `apply` (R87). -/
theorem replayPoint_eq (cfg : Cfg) (cur t : ClockConfig) (n : Nat) :
    (replayPoint cfg cur t n).srcMhz =
        (if .muxSel ∈ (applyOrder cfg cur t).take n then t.sourceFreqMhz else cur.sourceFreqMhz) ∧
    (replayPoint cfg cur t n).cpuDiv = (if .div .cpu ∈ (applyOrder cfg cur t).take n then t.divider else cur.divider) ∧
    ∀ b, busDiv (replayPoint cfg cur t n).busDiv b =
      (if .div b ∈ (applyOrder cfg cur t).take n then busDiv (busDivs cfg t) b else busDiv (busDivs cfg cur) b) :=
  foldl_pointWrite cfg t _ _

/-- The fields `apply` writes (R87). -/
theorem mem_applyOrder (cfg : Cfg) (cur t : ClockConfig) (f : RegField) :
    f ∈ applyOrder cfg cur t ↔ f = .muxSel ∨ ∃ b ∈ chain cfg, f = .div b := by
  unfold applyOrder divOrder
  dsimp only
  split <;> split <;> simp <;> grind

/-- The cascade reads the dividers of its buses only (R85). -/
theorem cascade_congr (d e : BusDivs) (g : Ratio) (l : List Bus) (h : ∀ b ∈ l, busDiv d b = busDiv e b) :
    cascade d g l = cascade e g l := by
  induction l generalizing g with
  | nil => rfl
  | cons b l ih =>
    simp only [cascade]
    rw [h b (by simp), ih _ (fun c hc => h c (by simp [hc]))]

/-- The source of a valid configuration that runs has its source frequency. -/
theorem srcMhz_of_runsIn {s : State} {k : ClockConfig} (hv : validConfig s.cfg k = true) (hr : runsIn (pllsOf s) k) :
    srcMhz s k.source = k.sourceFreqMhz := by
  unfold srcMhz
  unfold validConfig at hv
  cases hs : k.source <;> simp only [hs, Bool.and_eq_true, decide_eq_true_eq] at hv ⊢
  · exact hv.2.1.1.symm
  · exact congrArg Prod.snd (hr _ hs)
  · exact hv.2.1.1.symm

/-- Inside an `apply` the bus frequencies are those of the instant it has reached. -/
theorem busFreqs_of_hwAt {s : State} {t : ClockConfig} {n : Nat} (hc : validConfig s.cfg s.clk.cur = true)
    (hr : runsIn (pllsOf s) s.clk.cur) (ht : validConfig s.cfg t = true) (htr : runsIn (pllsOf s) t) (h : HwAt s t n) :
    busFreqs s = pointFreqs s.cfg (replayPoint s.cfg s.clk.cur t n) := by
  obtain ⟨h1, h2, h3⟩ := h
  have hsrc : srcMhz s s.clk.hw.mux = (replayPoint s.cfg s.clk.cur t n).srcMhz := by
    rw [h1, (replayPoint_eq _ _ _ _).1]
    split
    · exact srcMhz_of_runsIn ht htr
    · exact srcMhz_of_runsIn hc hr
  simp only [busFreqs, pointFreqs, chainFreqs, pointOf, hsrc, h2]
  exact cascade_congr _ _ _ _ h3

/-- The settled fields are those before the first write. -/
theorem hwAt_zero {s : State} (t : ClockConfig) (h1 : s.clk.hw.mux = s.clk.cur.source) (h2 : s.clk.hw.cpuDiv = s.clk.cur.divider)
    (h3 : ∀ b ∈ chain s.cfg, busDiv s.clk.hw.busDiv b = busDiv (busDivs s.cfg s.clk.cur) b) : HwAt s t 0 := by
  refine ⟨by simpa using h1, by simpa [replayPoint, settledPoint] using h2, ?_⟩
  simpa [replayPoint, settledPoint] using h3

/-- A write of `apply` takes the fields to the next instant. -/
theorem hwAt_write {s : State} {t : ClockConfig} {n : Nat} {f : RegField} (h : HwAt s t n)
    (hf : (applyOrder s.cfg s.clk.cur t)[n]? = some f) : HwAt (doApplyWrite t f s) t (n + 1) := by
  obtain ⟨h1, h2, h3⟩ := h
  have hmem : ∀ x,
      x ∈ (applyOrder s.cfg s.clk.cur t).take (n + 1) ↔ x ∈ (applyOrder s.cfg s.clk.cur t).take n ∨ x = f := by
    intro x; rw [List.take_add_one, hf]; simp
  have hfo : f ∈ applyOrder s.cfg s.clk.cur t := List.mem_of_getElem? hf
  obtain ⟨r1, r2, r3⟩ := replayPoint_eq s.cfg s.clk.cur t n
  obtain ⟨q1, q2, q3⟩ := replayPoint_eq s.cfg s.clk.cur t (n + 1)
  rw [r2] at h2
  simp only [r3] at h3
  refine ⟨?_, ?_, ?_⟩
  · change (hwWrite s.cfg t s.clk.hw f).mux =
      if .muxSel ∈ (applyOrder s.cfg s.clk.cur t).take (n + 1) then t.source else s.clk.cur.source
    rcases (mem_applyOrder _ _ _ _).1 hfo with rfl | ⟨b, _, rfl⟩
    · simp [hmem, hwWrite]
    · rw [show (hwWrite s.cfg t s.clk.hw (.div b)).mux = s.clk.hw.mux by cases b <;> rfl, h1]; simp [hmem]
  · change (hwWrite s.cfg t s.clk.hw f).cpuDiv = (replayPoint s.cfg s.clk.cur t (n+1)).cpuDiv
    rw [q2]
    rcases (mem_applyOrder _ _ _ _).1 hfo with rfl | ⟨b, _, rfl⟩
    · simp [hmem, hwWrite, h2]
    · cases b <;> simp [hmem, hwWrite, h2]
  · intro b hb
    change busDiv (hwWrite s.cfg t s.clk.hw f).busDiv b = busDiv (replayPoint s.cfg s.clk.cur t (n+1)).busDiv b
    rw [q3]
    have := h3 b hb
    rcases (mem_applyOrder _ _ _ _).1 hfo with rfl | ⟨c, _, rfl⟩
    · simp [hmem, hwWrite, this]
    · cases c <;> cases b <;> simp_all [hwWrite, setBusDiv, busDiv]

/-- After all the writes the fields are the target's. -/
theorem hwAt_end {s : State} {t : ClockConfig} {n : Nat} (h : HwAt s t n) (hn : (applyOrder s.cfg s.clk.cur t).length ≤ n) :
    s.clk.hw.mux = t.source ∧ s.clk.hw.cpuDiv = t.divider ∧
      ∀ b ∈ chain s.cfg, busDiv s.clk.hw.busDiv b = busDiv (busDivs s.cfg t) b := by
  obtain ⟨h1, h2, h3⟩ := h
  obtain ⟨_, q2, q3⟩ := replayPoint_eq s.cfg s.clk.cur t n
  rw [List.take_of_length_le hn] at h1 q2 q3
  refine ⟨?_, ?_, ?_⟩
  · rw [h1, if_pos ((mem_applyOrder _ _ _ _).2 (.inl rfl))]
  · rw [h2, q2, if_pos ((mem_applyOrder _ _ _ _).2 (.inr ⟨.cpu, by simp [chain, busLimit], rfl⟩))]
  · intro b hb
    rw [h3 b hb, q3, if_pos ((mem_applyOrder _ _ _ _).2 (.inr ⟨b, hb, rfl⟩))]

/-- A script whose head is resolved: it finds what it needs, or it is an `apply` at its first write. -/
def HeadReady (s : State) (l : List Micro) : Prop :=
  busReady s.cfg s.slp.savedCfg s.clk.cur (pllsOf s) l ∨
  ∃ t rest, validConfig s.cfg t = true ∧ runsIn (pllsOf s) t ∧
    l = (applyOrder s.cfg s.clk.cur t).map (Micro.applyWrite t) ++ .applyEnd t :: rest ∧
    busReady s.cfg s.slp.savedCfg t (pllsOf s) rest

/-- The writes of an `apply` are micro-steps. -/
theorem resolveHead_apply (n : Nat) (s : State) (t : ClockConfig) (l : List RegField) (rest : List Micro) :
    resolveHead n s (l.map (Micro.applyWrite t) ++ .applyEnd t :: rest) = l.map (Micro.applyWrite t) ++ .applyEnd t :: rest := by
  cases n with
  | zero => rfl
  | succ n => cases l <;> rfl

/-- `set_config` of a valid target finds what it needs, where the applied configuration runs (R90). -/
theorem busReady_setConfig {s : State} {t : ClockConfig} {rest : List Micro} (hx : cfgOk s.cfg = true)
    (hr : runsIn (pllsOf s) s.clk.cur)
    (ht : validConfig s.cfg t = true) (h : busReady s.cfg s.slp.savedCfg t (onlySource t) rest) :
    busReady s.cfg s.slp.savedCfg s.clk.cur (pllsOf s) (setConfigScript s t ++ rest) := by
  have tail : ∀ (view : PllView) (cur : ClockConfig) (bu : List Micro),
      ((∃ q, t.source = .pll q ∧ bu = [.bringUp t s.clk.cur.freqMhz]) ∨ ((∀ q, t.source ≠ .pll q) ∧ bu = [])) →
      (∀ q, t.source = .pll q → cur.source = .pll q → view q = (true, t.sourceFreqMhz)) →
      busReady s.cfg s.slp.savedCfg cur view (bu ++ ([.apply t, .stepFive s.clk.cur.freqMhz t.freqMhz] ++ rest)) := by
    rintro view cur bu (⟨q, hs, rfl⟩ | ⟨hs, rfl⟩) hv
    · simp only [List.cons_append, List.nil_append, busReady, busItemOk, curAfter, viewAfter, hs, ht, true_and]
      refine ⟨fun e q' hq => ?_, fun q' hq => ?_, ?_⟩
      · rw [hs] at hq; cases hq; exact hv q hs e
      · rw [hs] at hq; cases hq; simp [setView]
      · refine busReady_mono rest (fun j => ?_) h
        unfold onlySource setView
        rw [hs]
        by_cases e : j = q
        · simp [e]
        · simp [e, Ne.symm e]
    · simp only [List.cons_append, List.nil_append, busReady, busItemOk, curAfter, viewAfter, ht, true_and]
      refine ⟨fun q hq => absurd hq (hs q), busReady_mono rest (fun j => ?_) h⟩
      simp [onlySource, hs]
  obtain ⟨bu, hb, e⟩ : ∃ bu : List Micro,
      ((∃ q, t.source = .pll q ∧ bu = [.bringUp t s.clk.cur.freqMhz]) ∨ ((∀ q, t.source ≠ .pll q) ∧ bu = [])) ∧
      setConfigScript s t = (if goesThroughCrystal s t then [.apply (xtalNative s.cfg)] else []) ++
        ((leftPll s.clk.cur t).toList.map Micro.dropPll ++ (bu ++ [.apply t, .stepFive s.clk.cur.freqMhz t.freqMhz])) := by
    dsimp only [setConfigScript]
    cases leftPll s.clk.cur t <;> cases t.source <;> simp
  rw [e]
  simp only [List.append_assoc]
  by_cases hg : goesThroughCrystal s t = true
  · rw [if_pos hg]
    refine ⟨⟨xtalNative_valid hx, fun q hq => by simp [xtalNative] at hq⟩, ?_⟩
    simp only [curAfter, viewAfter]
    cases leftPll s.clk.cur t with
    | some p =>
      refine ⟨by simp [busItemOk, xtalNative], ?_⟩
      have := tail (setView (pllsOf s) p (false, 0)) (xtalNative s.cfg) bu hb (fun q _ e => by simp [xtalNative] at e)
      simpa [curAfter, viewAfter] using this
    | none =>
      have := tail (pllsOf s) (xtalNative s.cfg) bu hb (fun q _ e => by simp [xtalNative] at e)
      simpa using this
  · rw [if_neg hg]
    simp only [goesThroughCrystal, Bool.and_eq_true, Bool.or_eq_true, decide_eq_true_eq] at hg
    have hl : leftPll s.clk.cur t = none := by
      unfold leftPll; split
      · rename_i p hp
        split
        · rename_i hne
          exact absurd ⟨by simp [hp], .inl (by rw [hp]; exact hne)⟩ hg
        · rfl
      · rfl
    rw [hl]
    have := tail (pllsOf s) s.clk.cur bu hb (fun q h1 h2 => by
      have hrec : needsReconf s t ≠ true := fun e => hg ⟨by simp [h2], .inr e⟩
      simp only [needsReconf, h1] at hrec
      have hen := hr q h2
      simp only [pllsOf, Prod.mk.injEq] at hen ⊢
      exact ⟨hen.1, by simpa using hrec⟩)
    simpa using this

/-- Step 3 of `set_config` finds what it needs (R90). -/
theorem busReady_bringUp {s : State} {t : ClockConfig} {o : Word} {rest : List Micro}
    (h : busReady s.cfg s.slp.savedCfg s.clk.cur (pllsOf s) (.bringUp t o :: rest)) :
    busReady s.cfg s.slp.savedCfg s.clk.cur (pllsOf s) (bringUpScript s t o ++ rest) := by
  obtain ⟨⟨ht, hrun⟩, h⟩ := h
  simp only [curAfter, viewAfter] at h
  unfold bringUpScript
  cases hs : t.source with
  | pll q =>
    simp only [hs] at h hrun ⊢
    have hrun' : s.clk.cur.source = .pll q →
        (pllAt s q).enabled = true ∧ (pllAt s q).configuredFreqMhz = t.sourceFreqMhz := by
      intro e
      have := hrun e q hs
      simpa [pllsOf] using this
    have hid : pllIdOk s.cfg q = true := by
      simp only [validConfig, hs, Bool.and_eq_true, decide_eq_true_eq] at ht
      simpa [pllIdOk] using ht.2.1
    by_cases he : (pllAt s q).enabled = true <;> by_cases hc : (pllAt s q).configuredFreqMhz = t.sourceFreqMhz <;>
      simp only [he, hc, if_true, ne_eq, not_true, not_false_eq_true, if_false, List.nil_append, List.cons_append,
        Bool.false_eq_true]
    · refine busReady_mono rest (fun j => ?_) h
      unfold setView; split
      · rename_i e; simp [e, pllsOf, he, hc]
      · exact ⟨id, fun _ => rfl⟩
    · have hne : s.clk.cur.source ≠ .pll q := fun e => hc (hrun' e).2
      refine ⟨hne, trivial, trivial, ⟨hid, hne⟩, busReady_mono rest (fun j => ?_) h⟩
      simp only [viewAfter, setView]; split
      · simp [pllsOf, he]
      · exact ⟨id, fun _ => rfl⟩
    · have hne : s.clk.cur.source ≠ .pll q := fun e => he (hrun' e).1
      refine ⟨hid, busReady_mono rest (fun j => ?_) h⟩
      simp only [viewAfter, setView]; split
      · simp [pllsOf, hc]
      · exact ⟨id, fun _ => rfl⟩
    · have hne : s.clk.cur.source ≠ .pll q := fun e => hc (hrun' e).2
      refine ⟨hid, hne, trivial, trivial, ⟨hid, hne⟩, busReady_mono rest (fun j => ?_) h⟩
      simp only [viewAfter, setView]; split
      · simp
      · exact ⟨id, fun _ => rfl⟩
  | _ => simpa [hs] using h

/-- PROGRAM needs nothing of the clock tree. -/
theorem busReady_program {s : State} {rest : List Micro}
    (h : busReady s.cfg s.slp.savedCfg s.clk.cur (pllsOf s) rest) :
    busReady s.cfg s.slp.savedCfg s.clk.cur (pllsOf s) (programScript s ++ rest) := by
  unfold programScript
  generalize programFields s.cfg s.slp.regdmaEnabled = l
  induction l with
  | nil => exact ⟨trivial, h⟩
  | cons f l ih => exact ⟨trivial, ih⟩

/-- Resolving the head of a ready script leaves it ready, or at the first write of an `apply`. -/
theorem resolveHead_headReady (n : Nat) (s : State) (l : List Micro) (hx : cfgOk s.cfg = true) (hr : runsIn (pllsOf s) s.clk.cur)
    (hsv : validConfig s.cfg s.slp.savedCfg = true)
    (h : busReady s.cfg s.slp.savedCfg s.clk.cur (pllsOf s) l) : HeadReady s (resolveHead n s l) := by
  induction n generalizing l with
  | zero => exact .inl h
  | succ n ih =>
    cases l with
    | nil => exact .inl trivial
    | cons m rest =>
      simp only [resolveHead]
      split
      · rename_i l' he
        cases m <;> simp only [expand] at he <;> cases he
        · exact ih _ (busReady_setConfig hx hr h.1 h.2)
        · exact ih _ (busReady_setConfig hx hr hsv h.2)
        · exact ih _ (busReady_bringUp h)
        · rename_i t
          right
          refine ⟨t, rest, h.1.1, h.1.2, ?_, h.2⟩
          simp only [applyScript, List.append_assoc, List.singleton_append]
          exact resolveHead_apply n s t _ rest
        · exact ih _ (busReady_program h.2)
      · exact .inl h

end Sys2Proof.Machine
end

