-- ==== Sys2Proof/Laws/Operands.lean ====
section
/-! SUPPORT. What the two packed operands of a ClockConfig are, bit by bit (30_encoding.md R63, R64), and when a word decodes to
one. -/

open Sys2Proof

namespace Sys2Proof.Machine

/-- The bits of a ClockSource code (R63). -/
theorem sourceCode_bits (src : ClockSource) :
    (sourceCode src).extractLsb' 0 2 = (match src with | .crystal => 0 | .pll _ => 1 | .fastRc => 2) ∧
    (sourceCode src).extractLsb' 2 6 = 0 ∧
    (sourceCode src).extractLsb' 8 8 = (match src with | .pll id => id | _ => 0) ∧
    (sourceCode src).extractLsb' 16 16 = 0 := by
  cases src with
  | crystal => decide
  | pll id => revert id; decide
  | fastRc => decide

/-- The bytes of a packed Fraction (R64). -/
theorem packFraction_bits (q : Fraction) :
    (packFraction q).extractLsb' 0 8 = q.int ∧ (packFraction q).extractLsb' 8 8 = q.num ∧
    (packFraction q).extractLsb' 16 8 = q.den ∧ (packFraction q).extractLsb' 24 8 = 0 := by
  refine ⟨?_, ?_, ?_, ?_⟩ <;> ext i hi <;> simp [packFraction, BitVec.getElem_extractLsb'] <;> grind

/-- A word is its four bytes. -/
theorem word_eq_of_bytes (w v : Word) (h0 : w.extractLsb' 0 8 = v.extractLsb' 0 8)
    (h1 : w.extractLsb' 8 8 = v.extractLsb' 8 8) (h2 : w.extractLsb' 16 8 = v.extractLsb' 16 8)
    (h3 : w.extractLsb' 24 8 = v.extractLsb' 24 8) : w = v := by
  have e0 := congrArg BitVec.toNat h0
  have e1 := congrArg BitVec.toNat h1
  have e2 := congrArg BitVec.toNat h2
  have e3 := congrArg BitVec.toNat h3
  simp only [BitVec.extractLsb'_toNat, Nat.shiftRight_eq_div_pow] at e0 e1 e2 e3
  have := w.isLt
  have := v.isLt
  exact BitVec.eq_of_toNat_eq (by omega)

/-- A word is the four fields of a ClockSource code. -/
theorem word_eq_of_sourceFields (w v : Word) (h0 : w.extractLsb' 0 2 = v.extractLsb' 0 2)
    (h1 : w.extractLsb' 2 6 = v.extractLsb' 2 6) (h2 : w.extractLsb' 8 8 = v.extractLsb' 8 8)
    (h3 : w.extractLsb' 16 16 = v.extractLsb' 16 16) : w = v := by
  have e0 := congrArg BitVec.toNat h0
  have e1 := congrArg BitVec.toNat h1
  have e2 := congrArg BitVec.toNat h2
  have e3 := congrArg BitVec.toNat h3
  simp only [BitVec.extractLsb'_toNat, Nat.shiftRight_eq_div_pow] at e0 e1 e2 e3
  have := w.isLt
  have := v.isLt
  exact BitVec.eq_of_toNat_eq (by omega)

/-- A word decodes to a Fraction exactly when it is that Fraction packed and the Fraction is well-formed (R64). -/
theorem decodeFraction_eq_some (cfg : Cfg) (w : Word) (q : Fraction) :
    decodeFraction cfg w = some q ↔ fractionOk cfg q = true ∧ w = packFraction q := by
  unfold decodeFraction
  constructor
  · intro h
    split at h
    · rename_i hw
      cases h
      obtain ⟨h0, h1, h2, h3⟩ := packFraction_bits (unpackFraction w)
      exact ⟨hw.2, word_eq_of_bytes _ _ h0.symm h1.symm h2.symm (hw.1.trans h3.symm)⟩
    · cases h
  · rintro ⟨h, rfl⟩
    obtain ⟨h0, h1, h2, h3⟩ := packFraction_bits q
    have hu : unpackFraction (packFraction q) = q := by simp [unpackFraction, h0, h1, h2]
    rw [hu, if_pos ⟨h3, h⟩]

/-- A word decodes to a source exactly when it is the source's code and the chip has the PLL it names (R63). -/
theorem decodeSource_eq_some (cfg : Cfg) (w : Word) (src : ClockSource) :
    decodeSource cfg w = some src ↔
      (match src with | .pll id => id.toNat < cfg.nPll | _ => True) ∧ w = sourceCode src := by
  constructor
  · intro h
    simp only [decodeSource] at h
    split at h
    · rename_i hz
      split at h
      · rename_i hc
        cases h
        obtain ⟨h0, h1, h2, h3⟩ := sourceCode_bits .crystal
        exact ⟨trivial, word_eq_of_sourceFields _ _ ((BitVec.eq_of_toNat_eq hc.1).trans h0.symm) (hz.1.trans h1.symm)
          (hc.2.trans h2.symm) (hz.2.trans h3.symm)⟩
      · split at h
        · rename_i hc
          cases h
          obtain ⟨h0, h1, h2, h3⟩ := sourceCode_bits (.pll (w.extractLsb' 8 8))
          exact ⟨hc.2, word_eq_of_sourceFields _ _ ((BitVec.eq_of_toNat_eq hc.1).trans h0.symm) (hz.1.trans h1.symm)
            h2.symm (hz.2.trans h3.symm)⟩
        · split at h
          · rename_i hc
            cases h
            obtain ⟨h0, h1, h2, h3⟩ := sourceCode_bits .fastRc
            exact ⟨trivial, word_eq_of_sourceFields _ _ ((BitVec.eq_of_toNat_eq hc.1).trans h0.symm)
              (hz.1.trans h1.symm) (hc.2.trans h2.symm) (hz.2.trans h3.symm)⟩
          · cases h
    · cases h
  · rintro ⟨h, rfl⟩
    obtain ⟨h0, h1, h2, h3⟩ := sourceCode_bits src
    simp only [decodeSource, h0, h1, h2, h3]
    cases src <;> simp_all

end Sys2Proof.Machine
end

