-- ==== Sys2Proof/Laws/PerInstr.lean ====
section
/-! SUPPORT. The family `TableMatch`: the encoded command word of every op has the bits of its row of opcode_table.json under
the row's mask. -/

namespace Sys2Proof.Laws

/-- The command word of an encoded op matches the op's row of the opcode table (30_encoding.md R62). -/
def TableMatch.Statement (i : Instr) : Prop := (encode i).cmd &&& (opcodeRow i).mask = (opcodeRow i).bits

/-- A command word whose immediate is zero above bit 7 has, above bit 7, only its opcode. -/
theorem commandWord_id (op : Byte) (id : PllId) : commandWord op (immId id) &&& 0xFFFFFF00 = commandWord op 0 := by
  apply BitVec.eq_of_getLsbD_eq
  intro i hi
  interval_cases i <;>
    simp only [commandWord, immId, BitVec.getLsbD_and, BitVec.getLsbD_append] <;> simp

/-- A zero immediate leaves only the opcode. -/
theorem commandWord_plain (op : Byte) : commandWord op 0 &&& 0xFFFFFFFF = commandWord op 0 := by
  apply BitVec.eq_of_getLsbD_eq
  intro i hi
  interval_cases i <;> simp only [commandWord, BitVec.getLsbD_and, BitVec.getLsbD_append] <;> simp

/-- The same for a one-bit immediate. -/
theorem commandWord_deep (op : Byte) (deep : Bool) :
    commandWord op (immDeep deep) &&& 0xFFFFFFFE = commandWord op 0 := by
  apply BitVec.eq_of_getLsbD_eq
  intro i hi
  cases deep <;> interval_cases i <;>
    simp only [commandWord, immDeep, BitVec.getLsbD_and, BitVec.getLsbD_append] <;> simp

/-- The same for a mode index. -/
theorem commandWord_mode (op : Byte) (k : BitVec 3) :
    commandWord op (immMode k) &&& 0xFFFFFFF8 = commandWord op 0 := by
  apply BitVec.eq_of_getLsbD_eq
  intro i hi
  interval_cases i <;>
    simp only [commandWord, immMode, BitVec.getLsbD_and, BitVec.getLsbD_append] <;> simp

theorem TableMatch.setCpuFreq (f : Word) : TableMatch.Statement (.setCpuFreq f) := commandWord_plain 0x01

theorem TableMatch.getCpuFreq : TableMatch.Statement .getCpuFreq := commandWord_plain 0x02

theorem TableMatch.pllAddConsumer (id : PllId) : TableMatch.Statement (.pllAddConsumer id) := commandWord_id 0x03 id

theorem TableMatch.pllRemoveConsumer (id : PllId) : TableMatch.Statement (.pllRemoveConsumer id) := commandWord_id 0x04 id

theorem TableMatch.enterSleep (deep : Bool) (wk rj mf pd adj : Word) :
    TableMatch.Statement (.enterSleep deep wk rj mf pd adj) := commandWord_deep 0x05 deep

theorem TableMatch.cfgPwrModeDefaults (k : BitVec 3) : TableMatch.Statement (.cfgPwrModeDefaults k) :=
  commandWord_mode 0x06 k

theorem TableMatch.resolve (f : Word) : TableMatch.Statement (.resolve f) := commandWord_plain 0x10

theorem TableMatch.setConfig (a b c d : Word) : TableMatch.Statement (.setConfig a b c d) := commandWord_plain 0x11

theorem TableMatch.pllEnable (id : PllId) : TableMatch.Statement (.pllEnable id) := commandWord_id 0x20 id

theorem TableMatch.pllCfgCal (id : PllId) (x t : Word) : TableMatch.Statement (.pllCfgCal id x t) := commandWord_id 0x21 id

theorem TableMatch.pllDisable (id : PllId) : TableMatch.Statement (.pllDisable id) := commandWord_id 0x22 id

theorem TableMatch.buildParams (mf pd adj : Word) : TableMatch.Statement (.buildParams mf pd adj) := commandWord_plain 0x30

theorem TableMatch.program : TableMatch.Statement .program := commandWord_plain 0x31

theorem TableMatch.enter (deep : Bool) (wk rj : Word) : TableMatch.Statement (.enter deep wk rj) := commandWord_deep 0x32 deep

theorem TableMatch.regdmaEn : TableMatch.Statement .regdmaEn := commandWord_plain 0x33

theorem TableMatch.regdmaDis : TableMatch.Statement .regdmaDis := commandWord_plain 0x34

end Sys2Proof.Laws
end

