-- ==== Sys2Proof/Tests/Slice0.lean ====
section
/-! SUPPORT. The author's own tests: decoding of written-out words, the checks of WellFormed, one step of every op, and for every
obligation with hypotheses a concrete state that meets them (`test_witness_…`). Expected values are those of
95_test_vectors.md, named by their vector. -/

open Sys2Proof Sys2Proof.Machine

namespace Sys2Proof.Tests

/-! ### Decoding, bit by bit from 30_encoding.md R60 to R62 (V-EN-A, V-EN-B) -/

/-- Operand registers of zeros. -/
def noArgs : Regs5 := #v[0, 0, 0, 0, 0]

theorem test_decode_setCpuFreq :
    decode 0b00000001000000000000000000000000 #v[0xA0, 0, 0, 0, 0] = .ok (.setCpuFreq 160) := by decide

theorem test_decode_getCpuFreq :
    decode 0b00000010000000000000000000000000 noArgs = .ok .getCpuFreq := by decide

theorem test_decode_pllAddConsumer :
    decode 0b00000011000000000000000000000101 noArgs = .ok (.pllAddConsumer 5) := by decide

theorem test_decode_pllRemoveConsumer :
    decode 0b00000100000000000000000011111111 noArgs = .ok (.pllRemoveConsumer 255) := by decide

theorem test_decode_enterSleep :
    decode 0b00000101000000000000000000000001 #v[4, 1, 0x12, 1, 9] = .ok (.enterSleep true 4 1 0x12 1 9) := by decide

theorem test_decode_cfgPwrModeDefaults :
    decode 0b00000110000000000000000000000100 noArgs = .ok (.cfgPwrModeDefaults 4) := by decide

theorem test_decode_resolve :
    decode 0b00010000000000000000000000000000 #v[0x50, 1, 2, 3, 4] = .ok (.resolve 80) := by decide

theorem test_decode_setConfig :
    decode 0b00010001000000000000000000000000 #v[1, 0x1E0, 3, 0xA0, 7] = .ok (.setConfig 1 480 3 160) := by decide

theorem test_decode_pllEnable :
    decode 0b00100000000000000000000010000000 noArgs = .ok (.pllEnable 128) := by decide

theorem test_decode_pllCfgCal :
    decode 0b00100001000000000000000000000010 #v[0x28, 0x1E0, 0, 0, 0] = .ok (.pllCfgCal 2 40 480) := by decide

theorem test_decode_pllDisable :
    decode 0b00100010000000000000000000000001 noArgs = .ok (.pllDisable 1) := by decide

theorem test_decode_buildParams :
    decode 0b00110000000000000000000000000000 #v[0x12, 1, 5, 0, 0] = .ok (.buildParams 0x12 1 5) := by decide

theorem test_decode_program :
    decode 0b00110001000000000000000000000000 noArgs = .ok .program := by decide

theorem test_decode_enter :
    decode 0b00110010000000000000000000000001 #v[4, 1, 0, 0, 0] = .ok (.enter true 4 1) := by decide

theorem test_decode_regdmaEn :
    decode 0b00110011000000000000000000000000 noArgs = .ok .regdmaEn := by decide

theorem test_decode_regdmaDis :
    decode 0b00110100000000000000000000000000 noArgs = .ok .regdmaDis := by decide

/-- V-EN-B: an unassigned opcode, and a reserved bit of each of the formats N, I, S, M. -/
theorem test_decode_illegal :
    decode 0x07000000 noArgs = .error (.unknownOpcode 7) ∧ decode 0x02000001 noArgs = .error (.reservedImm 2 1) ∧
      decode 0x03000100 noArgs = .error (.reservedImm 3 0x100) ∧ decode 0x32000002 noArgs = .error (.reservedImm 0x32 2) ∧
      decode 0x06000008 noArgs = .error (.reservedImm 6 8) := by decide

/-- The table's numbering of bits: the low 32 bits are the command word, whatever stands above them. -/
theorem test_tableWord :
    decodeTableWord 32 0x20000003 = some (.pllEnable 3) ∧ decodeTableWord 32 0x132000001 = some (.enter true 0 0) ∧
      decodeTableWord 32 0 = none := by decide

/-! ### WellFormed refuses -/

theorem test_ill_setCpuFreq : wellFormed Config.ex40 (.setCpuFreq 7) = false := by decide

theorem test_ill_pllAddConsumer : wellFormed Config.ex40 (.pllAddConsumer 1) = false := by decide

theorem test_ill_pllRemoveConsumer : wellFormed Config.ex40 (.pllRemoveConsumer 8) = false := by decide

theorem test_ill_enterSleep : wellFormed Config.ex40 (.enterSleep true 1 0 0x22 0 0) = false := by decide

theorem test_ill_cfgPwrModeDefaults : wellFormed Config.ex40 (.cfgPwrModeDefaults 5) = false := by decide

theorem test_ill_resolve : wellFormed Config.ex40 (.resolve 0) = false := by decide

/-- V-SC8: reserved source tag, PLL number, PllId without a PLL tag, source frequency, divider, frequency, fraction, PLL entry. -/
theorem test_ill_setConfig :
    wellFormed Config.ex40 (.setConfig 3 40 1 40) = false ∧ wellFormed Config.ex40 (.setConfig 0x101 480 3 160) = false ∧
      wellFormed Config.ex40 (.setConfig 0x100 40 1 40) = false ∧ wellFormed Config.ex40 (.setConfig 0 41 1 41) = false ∧
      wellFormed Config.ex40 (.setConfig 0 40 3 13) = false ∧ wellFormed Config.ex40 (.setConfig 0 40 2 21) = false ∧
      wellFormed Config.ex40 (.setConfig 0 40 0 40) = false ∧ wellFormed Config.ex40 (.setConfig 0 40 0x10001 40) = false ∧
      wellFormed Config.ex40 (.setConfig 1 480 5 96) = false ∧ wellFormed Config.ex40 (.setConfig 2 20 4 5) = false := by decide

theorem test_ill_pllEnable : wellFormed Config.ex40 (.pllEnable 255) = false := by decide

theorem test_ill_pllCfgCal :
    wellFormed Config.ex40 (.pllCfgCal 1 40 480) = false ∧ wellFormed Config.ex40 (.pllCfgCal 0 0 480) = false ∧
      wellFormed Config.ex40 (.pllCfgCal 0 40 0) = false := by decide

theorem test_ill_pllDisable : wellFormed Config.ex40 (.pllDisable 1) = false := by decide

/-- V-BP7: targets 0 and 3, a reserved bit; V-BP6: the Modem target on a chip without it. -/
theorem test_ill_buildParams :
    wellFormed Config.ex40 (.buildParams 0x10 0 0) = false ∧ wellFormed Config.ex40 (.buildParams 0x13 0 0) = false ∧
      wellFormed Config.ex40 (.buildParams 0x22 0 0) = false ∧
      wellFormed { Config.ex40 with hasModemMode := false } (.buildParams 1 0 0) = false := by decide

/-- Each check of a chip description refuses EX40 with one parameter spoilt. -/
theorem test_ill_cfg :
    cfgOk { Config.ex40 with xtalFreqMhz := 0 } = false ∧ cfgOk { Config.ex40 with fastRcFreqMhz := 0 } = false ∧
      cfgOk { Config.ex40 with nPll := 9 } = false ∧ cfgOk { Config.ex40 with nCores := 0 } = false ∧
      cfgOk { Config.ex40 with legalXtalDivs := [2] } = false ∧ cfgOk { Config.ex40 with legalXtalDivs := [1, 0] } = false ∧
      cfgOk { Config.ex40 with legalRcDivs := [0] } = false ∧ cfgOk { Config.ex40 with calTimeoutPolls := 0 } = false ∧
      cfgOk { Config.ex40 with auxIdleBound := 0 } = false ∧ cfgOk { Config.ex40 with cscBase := 0x60000004 } = false := by
  decide

/-- R16 (a): a PLL entry with another source, no frequency, a malformed divider, or a frequency that is not the quotient. -/
theorem test_ill_pllTable :
    pllEntryOk Config.ex40 (xtalNative Config.ex40) = false ∧
      pllEntryOk Config.ex40 { Config.ex40Entry 3 160 with source := .pll 1 } = false ∧
      pllEntryOk Config.ex40 { Config.ex40Entry 3 160 with sourceFreqMhz := 0 } = false ∧
      pllEntryOk Config.ex40 (Config.ex40Entry 0 160) = false ∧ pllEntryOk Config.ex40 (Config.ex40Entry 3 161) = false := by
  decide

/-- V-INV-BAD: the descriptor that breaks R16 (d); every settled frequency is legal, the second write of 120 to 160 is not. -/
theorem test_ill_moves :
    withinLimits { Config.ex40 with limits := { cpu := 240, ahb := some 120, mem := some 120, sys := some 80, apb := some 40 } }
      (pointFreqs
        { Config.ex40 with limits := { cpu := 240, ahb := some 120, mem := some 120, sys := some 80, apb := some 40 } }
        (replayPoint
          { Config.ex40 with limits := { cpu := 240, ahb := some 120, mem := some 120, sys := some 80, apb := some 40 } }
          (Config.ex40Entry 4 120) (Config.ex40Entry 3 160) 2)) = false := by decide

/-! ### EX40 is well-formed (V-INV) -/

/-- The thirteen valid configurations of EX40 (95_test_vectors.md section 1.1). -/
def ex40Configs : List ClockConfig :=
  ([(1, 40), (2, 20), (4, 10), (5, 8), (8, 5), (10, 4), (20, 2), (40, 1)] : List (Byte × Word)).map
      (fun e => { source := .crystal, sourceFreqMhz := 40, divider := intFraction e.1, freqMhz := e.2 }) ++
    ([(1, 20), (2, 10)] : List (Byte × Word)).map
      (fun e => { source := .fastRc, sourceFreqMhz := 20, divider := intFraction e.1, freqMhz := e.2 }) ++
    Config.ex40.pllTable

/-- A legal crystal divider and the frequency it gives. -/
theorem ex40_crystal (i : Byte) (hi : Config.ex40.legalXtalDivs.contains i.toNat = true) (f : Word)
    (hf : divRound Config.ex40 40 (intFraction i) = some f.toNat) :
    (i, f) ∈ ([(1, 40), (2, 20), (4, 10), (5, 8), (8, 5), (10, 4), (20, 2), (40, 1)] : List (Byte × Word)) := by
  have key : ∀ i : Byte, Config.ex40.legalXtalDivs.contains i.toNat = true →
      ∃ g : Word, divRound Config.ex40 40 (intFraction i) = some g.toNat ∧
        (i, g) ∈ ([(1, 40), (2, 20), (4, 10), (5, 8), (8, 5), (10, 4), (20, 2), (40, 1)] : List (Byte × Word)) := by
    intro i hi
    have h : i ∈ ([1, 2, 4, 5, 8, 10, 20, 40] : List Byte) := by revert i; decide
    fin_cases h
    exacts [⟨40, by decide, by decide⟩, ⟨20, by decide, by decide⟩, ⟨10, by decide, by decide⟩, ⟨8, by decide, by decide⟩,
      ⟨5, by decide, by decide⟩, ⟨4, by decide, by decide⟩, ⟨2, by decide, by decide⟩, ⟨1, by decide, by decide⟩]
  obtain ⟨g, h1, h2⟩ := key i hi
  rw [hf, Option.some_inj] at h1
  rwa [BitVec.eq_of_toNat_eq h1]

/-- A legal RC divider and the frequency it gives. -/
theorem ex40_rc (i : Byte) (hi : Config.ex40.legalRcDivs.contains i.toNat = true) (f : Word)
    (hf : divRound Config.ex40 20 (intFraction i) = some f.toNat) :
    (i, f) ∈ ([(1, 20), (2, 10)] : List (Byte × Word)) := by
  have key : ∀ i : Byte, Config.ex40.legalRcDivs.contains i.toNat = true → i ∈ ([1, 2] : List Byte) := by decide
  have h := key i hi
  fin_cases h
  · rw [show divRound Config.ex40 20 (intFraction 1) = some (20 : Word).toNat by decide, Option.some_inj] at hf
    rw [← BitVec.eq_of_toNat_eq hf]; decide
  · rw [show divRound Config.ex40 20 (intFraction 2) = some (10 : Word).toNat by decide, Option.some_inj] at hf
    rw [← BitVec.eq_of_toNat_eq hf]; decide

/-- There is no other valid configuration. -/
theorem ex40Configs_complete (k : ClockConfig) (h : validConfig Config.ex40 k = true) : k ∈ ex40Configs := by
  obtain ⟨src, sf, ⟨i, n, d⟩, f⟩ := k
  simp only [validConfig, Bool.and_eq_true, decide_eq_true_eq] at h
  obtain ⟨⟨⟨hq, hs⟩, hf⟩, hk⟩ := h
  cases src with
  | pll id =>
    simp only [Bool.and_eq_true, decide_eq_true_eq, List.contains_iff_mem] at hk
    exact List.mem_append_right _ hk.2
  | crystal =>
    simp only [Bool.and_eq_true, decide_eq_true_eq, legalIntDiv] at hk
    obtain ⟨⟨rfl, rfl, hd⟩, hr⟩ := hk
    obtain ⟨-, rfl⟩ : 1 ≤ i.toNat ∧ n = 0 := by simpa [fractionOk, Config.ex40] using hq
    exact List.mem_append_left _ (List.mem_append_left _ (List.mem_map.2 ⟨(i, f), ex40_crystal i hd f hr, rfl⟩))
  | fastRc =>
    simp only [Bool.and_eq_true, decide_eq_true_eq, legalIntDiv] at hk
    obtain ⟨⟨rfl, rfl, hd⟩, hr⟩ := hk
    obtain ⟨-, rfl⟩ : 1 ≤ i.toNat ∧ n = 0 := by simpa [fractionOk, Config.ex40] using hq
    exact List.mem_append_left _ (List.mem_append_right _ (List.mem_map.2 ⟨(i, f), ex40_rc i hd f hr, rfl⟩))

/-- R16 (c) on the list. -/
theorem ex40_settled : ∀ k ∈ ex40Configs, withinLimits Config.ex40 (settledFreqs Config.ex40 k) = true := by decide

/-- R16 (d) on the list, at the seven instants of a move. -/
theorem ex40_moves : ∀ a ∈ ex40Configs, ∀ b ∈ ex40Configs, ∀ n : Fin 7,
    withinLimits Config.ex40 (pointFreqs Config.ex40 (replayPoint Config.ex40 a b n.val)) = true := by decide

/-- A move has six writes. -/
theorem ex40_applyOrder_length : ∀ a ∈ ex40Configs, ∀ b ∈ ex40Configs, (applyOrder Config.ex40 a b).length = 6 := by
  decide

/-- The chip of `State.reset` is well-formed (V-INV). -/
theorem test_ex40_wellFormed : CfgWellFormed Config.ex40 where
  ok := by decide
  settled := fun k hk => ex40_settled k (ex40Configs_complete k hk)
  moves := by
    intro a b ha hb n
    have ha := ex40Configs_complete a ha
    have hb := ex40Configs_complete b hb
    by_cases hn : n < 7
    · exact ex40_moves a ha b hb ⟨n, hn⟩
    · have hl := ex40_applyOrder_length a ha b hb
      have := ex40_moves a ha b hb 6
      simpa only [replayPoint, List.take_of_length_le (show (applyOrder Config.ex40 a b).length ≤ n by omega),
        List.take_of_length_le (show (applyOrder Config.ex40 a b).length ≤ (6 : Fin 7).val by omega)] using this

/-! ### Small states -/

/-- The state of a next outcome; the tests below meet no other. -/
def took : Host.Outcome State Fault Refusal → State
  | .next t => t
  | .fault _ => State.reset
  | .refused _ => State.reset

/-- An op accepted, then its micro-steps with the given answers. -/
def run (i : Instr) (answers : List Bool) (s : State) : State := runSequencer answers (took (exec i s))

/-- After reset, with an LP clock of 150 kHz. -/
def ready : State := { State.reset with slp := { State.reset.slp with lpClkFreqHz := 150000 } }

/-- `ready` with controller 0 on, configured to `f`, with `n` consumers. -/
def pllOn (f n : Word) : State :=
  { ready with
    plls := ready.plls.set 0
      { enabled := true, configuredFreqMhz := f, consumerCount := n, calState := .calIdle, calPollsLeft := 0 },
    curPllFreqMhz := f }

/-- The 160 MHz entry of EX40. -/
def c160 : ClockConfig := Config.ex40Entry 3 160

/-- The CPU at 160 MHz from PLL 0 with `n` consumers, the counter at 1600 (P3). -/
def at160 (n : Word) : State :=
  { pllOn 480 n with
    clk := {
      state := .onPll 0, cur := c160, hw := { mux := .pll 0, cpuDiv := intFraction 3, busDiv := ⟨2, 1, 1, 2⟩ },
      ticksPerUs := 160, cycleCounter := 1600 } }

/-- Parameters built, with a small budget already latched; `programmed` as given. -/
def built (p : Bool) : State :=
  { ready with
    slp := { ready.slp with state := .paramsBuilt, programmed := p, hwwait := { SleepBudget.zero with lpWait := 2, hpWait := 1 } } }

/-- In HALT. -/
def haltedAt (s : State) : State := { s with fault := { halted := true, code := 2, info := 0 } }

/-- Core 1's `PLL_ENABLE 0` is running. -/
def busyState : State := took (exec (.pllEnable 0) (setEnv { ready.env with picked := 1 } ready))

/-- The input lines set. -/
def withLines (wake reject : Word) (s : State) : State := setEnv { s.env with wakeLines := wake, rejectLines := reject } s

/-- Asleep in an ENTER of core 0 with wake line 2 enabled. -/
def asleepState : State := run (.enter false 4 0) [false, false, false, false, false] (built true)

/-- One action on the agenda. -/
def willDo (a : Action) (s : State) : State := setEnv { s.env with agenda := [a] } s

/-! ### One test or two per op -/

/-- V-SC1: 0 then 1 polled. -/
theorem test_setCpuFreq_160 :
    (run (.setCpuFreq 160) (List.replicate 3 false ++ [false] ++ List.replicate 10 true) ready).clk =
      { state := .onPll 0, cur := c160, hw := { mux := .pll 0, cpuDiv := intFraction 3, busDiv := ⟨2, 1, 1, 2⟩ },
        ticksPerUs := 160, cycleCounter := 0 } := by decide

/-- P4: three polls of 0 halt the block on the crystal. -/
theorem test_setCpuFreq_timeout :
    (run (.setCpuFreq 80) (List.replicate 6 false) ready).fault = { halted := true, code := 2, info := 0 } ∧
      (run (.setCpuFreq 80) (List.replicate 6 false) ready).clk = ready.clk := by decide

/-- V-GF1. -/
theorem test_getCpuFreq : resList (took (exec .getCpuFreq ready)) 0 = [0, 40, 1, 40, 0] := by decide

/-- After V-SC1. -/
theorem test_getCpuFreq_pll : resList (took (exec .getCpuFreq (at160 0))) 0 = [1, 480, 3, 160, 0] := by decide

/-- V-PL9, V-PL10: one up, and never from the largest count. -/
theorem test_pllAddConsumer :
    (pllAt (took (exec (.pllAddConsumer 0) (pllOn 0 5))) 0).consumerCount = 6 ∧
      statusWord (mboxAt (took (exec (.pllAddConsumer 0) (pllOn 0 0xFFFFFFFF))) 0) = 0x1704 := by decide

/-- V-PL10: a remove at count 0. -/
theorem test_pllRemoveConsumer :
    faultWord (took (exec (.pllRemoveConsumer 0) ready)).fault = 0x02000301 ∧
      statusWord (mboxAt (took (exec (.pllRemoveConsumer 0) ready)) 0) = 0x304 := by decide

/-- P3: rejected, and back at 160 MHz with the counter at 1600. -/
theorem test_enterSleep_rejected :
    (run (.enterSleep false 0 1 0x12 0 0) (List.replicate 60 true) (withLines 0 1 (at160 0))).clk = (at160 0).clk ∧
      resList (run (.enterSleep false 0 1 0x12 0 0) (List.replicate 60 true) (withLines 0 1 (at160 0))) 0 =
        [1, 0, 0, 0, 0] := by decide +kernel

/-- V-BP7 for ENTER_SLEEP: the budget check is at the crystal's frequency, before anything is written. -/
theorem test_enterSleep_overflow :
    statusWord (mboxAt (took (exec (.enterSleep false 0 1 0x12 0 0xFFFFFFFF) (at160 0))) 0) = 0x1304 := by decide

/-- V-CF1. -/
theorem test_cfgPwrModeDefaults :
    resList (took (exec (.cfgPwrModeDefaults 2) ready)) 0 = [1, 0xFFF, 0x101, 1, 3] := by decide

/-- S7, V-RS1. -/
theorem test_resolve :
    resList (took (exec (.resolve 80) ready)) 0 = [1, 480, 6, 80, 0] ∧
      statusWord (mboxAt (took (exec (.resolve 7) ready)) 0) = 0x104 := by decide

/-- V-RS2: the nearest variant with divider 3. -/
theorem test_resolve_nearest :
    (resolve { Config.ex40 with divRound := .nearest, legalXtalDivs := [1, 2, 3, 5] } 13).isSome = true ∧
      resolve { Config.ex40 with divRound := .nearest, legalXtalDivs := [1, 2, 3, 5] } 7 = none ∧
      resolve { Config.ex40 with divRound := .nearest, legalXtalDivs := [1, 2, 3, 5] } 14 = none := by decide

/-- V-SC7: the RC source, select first. -/
theorem test_setConfig_rc :
    (run (.setConfig 2 20 2 10) (List.replicate 8 true) ready).trace =
      [.w .muxSel 2, .w (.div .cpu) 2, .w (.div .ahb) 1, .w (.div .mem) 1, .w (.div .sys) 1, .w (.div .apb) 1] := by
  decide

/-- V-SC4 with a consumer: the PLL stays up and the counter is scaled once. -/
theorem test_setConfig_crystal :
    (run (.setConfig 0 40 1 40) (List.replicate 17 true) (at160 1)).plls = (at160 1).plls ∧
      (run (.setConfig 0 40 1 40) (List.replicate 17 true) (at160 1)).clk.cycleCounter = 400 := by decide

/-- V-PL1: enabling an enabled PLL sends the event again. -/
theorem test_pllEnable : (run (.pllEnable 0) [false] (pllOn 0 0)).trace = [.w (.pllPwr 0) 1] := by decide

/-- V-PL2: the done flag on the last allowed poll. -/
theorem test_pllCfgCal_lastPoll :
    pllAt (run (.pllCfgCal 0 40 480) [false, false, false, false, true, false] (pllOn 0 0)) 0 =
      { enabled := true, configuredFreqMhz := 480, consumerCount := 0, calState := .calIdle, calPollsLeft := 0 } := by
  decide

/-- V-PL3, V-PL4. -/
theorem test_pllCfgCal_timeout :
    pllStateWord (pllAt (run (.pllCfgCal 0 40 480) [false, false, false, false, false] (pllOn 0 0)) 0) = 5 ∧
      statusWord (mboxAt (took (exec (.pllCfgCal 0 0 480) ready)) 0) = 0x1104 := by decide

/-- V-PL7, V-PL8. -/
theorem test_pllDisable :
    pllAt (run (.pllDisable 0) [true] (pllOn 480 0)) 0 = Pll.reset ∧
      faultWord (run (.pllDisable 0) [true] (pllOn 480 1)).fault = 0x01000301 := by decide

/-- V-BP2. -/
theorem test_buildParams :
    (run (.buildParams 0x12 1 0) [true] ready).slp.params.budget = ⟨129, 16200, 10000, 40, 800, 1600, 1264⟩ := by
  decide

/-- V-BP3, V-BP4. -/
theorem test_buildParams_flags :
    resList (run (.buildParams 0x1E 0 100) [true] ready) 0 = [129, 7840, 1335, 0, 0] ∧
      resList (run (.buildParams 0x12 0 0) [true] (at160 0)) 0 = [92, 31360, 812, 0, 0] := by decide

/-- V-PG1: eighteen events, and twenty-one with the backup words. -/
theorem test_program :
    (run .program (List.replicate 18 true) (built false)).trace.length = 18 ∧
      slpStateWord (run .program (List.replicate 18 true) (built false)).slp = 0x11 ∧
      (run .program (List.replicate 21 true) (run .regdmaEn [true] (built false))).trace.length = 22 := by decide

/-- V-EN2: exactly one status poll, never asleep. -/
theorem test_enter_rejected :
    (run (.enter false 0 1) (List.replicate 8 true) (withLines 0 1 (built true))).trace =
        [.w .wakeType 0, .w .wakeEn 0, .w .rejectEn 1, .w .intClr 3, .w .sleepStart 1, .r .intStatus 2, .r .auxIdle 1] ∧
      resList (run (.enter false 0 1) (List.replicate 8 true) (withLines 0 1 (built true))) 0 = [1, 0, 0, 0, 0] := by
  decide

/-- V-EN1 on a budget of two LP ticks and one HP tick. -/
theorem test_enter_woken :
    slpStateWord asleepState.slp = 0x53 ∧
      slpStateWord (took (runActions [.setWakeLines 4, .wakeTrigger, .lpTick] asleepState)).slp = 0x153 ∧
      intStatusWord (took (runActions (.setWakeLines 4 :: wakeSchedule asleepState.slp.hwwait) asleepState)).slp = 1 := by
  decide

/-- V-RD1. -/
theorem test_regdmaEn :
    (run .regdmaEn [] (run .regdmaEn [true] ready)).trace = [.w .regdmaBackupEn 1] ∧
      slpStateWord (run .regdmaEn [true] ready).slp = 0x20 := by decide

/-- V-RD1. -/
theorem test_regdmaDis :
    (run .regdmaDis [] ready).trace = [] ∧
      (run .regdmaDis [true] (run .regdmaEn [true] ready)).trace = [.w .regdmaBackupEn 1, .w .regdmaBackupEn 0] := by
  decide

/-- V-ST5. -/
theorem test_stepFive :
    rescale 1000000 40 160 = 4000000 ∧ rescale 0xFFFFFFFF 40 160 = 0xFFFFFFFC ∧ rescale 7 160 40 = 1 ∧
      rescale 100 240 160 = 66 := by decide

/-- The first step after reset with a placed word runs it. -/
theorem test_fetchWord :
    statusWord (mboxAt (took (step (State.reset.withFetchWord 32 0x02000000))) 0) = 4 ∧
      statusWord (mboxAt (took (step (State.reset.withFetchWord 32 0x03000001))) 0) = 0x1804 ∧
      statusWord (mboxAt (took (step (State.reset.withFetchWord 32 0x20000000))) 0) = 2 ∧
      statusWord (mboxAt (took (step (State.reset.withFetchWord 32 0))) 0) = 0x1004 := by decide

/-- R47: a `W` is a 4-byte write, a `B` a 1-byte write of its byte. -/
theorem test_event_width :
    accessBytes (eventAccess (.w .muxSel 1)) = 4 ∧ accessBytes (eventAccess (.b (.calStart 0) 1)) = 1 ∧
      eventAccess (.b (.calStart 0) 1) = .busWrite (Config.busLocation (.calStart 0)) 1 := ⟨rfl, rfl, rfl⟩

/-- R45: `t[7:4] <- 5`, and the read of that range; R41: the last word of the RegisterBus. -/
theorem test_masked_access :
    maskedWrite (some ⟨7, 4, by decide⟩) (0xFFFFFFFF : Word) 5 = 0xFFFFFF5F ∧
      maskedRead (some ⟨7, 4, by decide⟩) (0xFFFFFF5F : Word) = 5 ∧ maskedWrite none (0xFF : Byte) 1 = 1 ∧
      regAddress { word := 0x3FFFFFFF, range := none } = 0xFFFFFFFC := by decide

/-! ### Witnesses: for every obligation with hypotheses, states and operands that meet them -/

/-- R72: a word placed as core 0's pending command, legal or not, in HALT too. -/
theorem test_witness_IllegalWordRefused :
    decode 0xFF000000 noArgs = .error (.unknownOpcode 0xFF) ∧ (0 : Core).val < State.reset.cfg.nCores ∧
      (mboxAt (placeCommand 0xFF000000 noArgs (haltedAt ready)) 0).pending = true ∧
      decode (mboxAt (placeCommand 0xFF000000 noArgs (haltedAt ready)) 0).cmd
        (mboxAt (placeCommand 0xFF000000 noArgs (haltedAt ready)) 0).arg = .error (.unknownOpcode 0xFF) := by decide

theorem test_witness_StepRunsTheDecodedOp :
    (willDo .reset ready).env.agenda = .reset :: [] ∧ State.reset.env.agenda = [] ∧
      nextAction (State.reset.withFetchWord 32 0x06000004) = .accept 0 ∧
      (0 : Core).val < (State.reset.withFetchWord 32 0x06000004).cfg.nCores ∧
      (mboxAt (State.reset.withFetchWord 32 0x06000004) 0).pending = true ∧
      decode (mboxAt (State.reset.withFetchWord 32 0x06000004) 0).cmd
        (mboxAt (State.reset.withFetchWord 32 0x06000004) 0).arg = .ok (.cfgPwrModeDefaults 4) := by decide

theorem test_witness_HaltRefusesAndBusyWaits :
    (haltedAt ready).fault.halted = true ∧ isSequenced .program = true ∧ busyState.fault.halted = false ∧
      busyState.seq.busy = true := by decide

/-- A host access outside the window stops; the last word of the window does not. -/
theorem test_witness_StepStopsOnlyOutsideTheWindow :
    step (willDo (.hostRead 0x60001000 4) ready) = .fault .outsideWindow ∧
      (took (step (willDo (.hostRead 0x60000FFC 4) ready))).env.readData = some 0 := ⟨rfl, by decide⟩

theorem test_witness_ready :
    Ready ready ∧ Ready (at160 0) ∧ Ready (pllOn 480 1) ∧ Ready (built true) ∧ cfgOk ready.cfg = true :=
  ⟨⟨rfl, rfl⟩, ⟨rfl, rfl⟩, ⟨rfl, rfl⟩, ⟨rfl, rfl⟩, by decide⟩

/-- The three ways of a sequenced acceptance: turned away, running, ended. -/
theorem test_witness_SequencedAcceptanceFrame :
    isSequenced .program = true ∧ isSequenced (.setCpuFreq 40) = true ∧ isSequenced .regdmaDis = true ∧
      statusWord (mboxAt (took (exec .program ready)) 0) = 0x1204 ∧
      (took (exec (.setCpuFreq 40) ready)).seq.busy = true ∧
      statusWord (mboxAt (took (exec .regdmaDis ready)) 0) = 4 := by decide

theorem test_witness_ResolveIsExact :
    cfgOk Config.ex40 = true ∧ resolve Config.ex40 160 = some c160 ∧
      resolve Config.ex40 1 = some { xtalNative Config.ex40 with divider := intFraction 40, freqMhz := 1 } := by
  decide

theorem test_witness_ResolveCrystalExactly :
    cfgOk Config.ex40 = true ∧ Config.ex40.divRound = .exact ∧
      resolveCrystal Config.ex40 40 = some (xtalNative Config.ex40) ∧ resolveCrystal Config.ex40 0 = none ∧
      resolveCrystal Config.ex40 3 = none := by decide

/-- The four cases: crystal, PLL table, 0, and no configuration. -/
theorem test_witness_ResolveRuns :
    ready.fault.halted = false ∧ resolveCrystal ready.cfg 40 = some (xtalNative ready.cfg) ∧
      ((240 : Word) ≠ 0 ∧ resolveCrystal ready.cfg 240 = none ∧
        ready.cfg.pllTable.find? (fun e => decide (e.freqMhz = 240)) = some (Config.ex40Entry 2 240)) ∧
      resolveCrystal ready.cfg 241 = none ∧ ∀ e ∈ ready.cfg.pllTable, e.freqMhz ≠ 241 := by decide

/-- R63 to R65: the words of a configuration on the PLL, and the first PLL number the chip does not have. -/
theorem test_witness_ResolveRuns_words :
    validConfig Config.ex40 c160 = true ∧ decodeValidConfig Config.ex40 1 480 3 160 = some c160 ∧
      decodeValidConfig Config.ex40 0x101 480 3 160 = none := by decide

theorem test_witness_GetCpuFreqReturnsCur : busyState.fault.halted = false := by decide

/-- Both ops; from the crystal to the PLL, and from the PLL to the crystal. -/
theorem test_witness_ClockSwitchRuns :
    cfgOk ready.cfg = true ∧ Ready ready ∧ clockTarget ready.cfg (.setCpuFreq 160) = some c160 ∧
      clockTarget ready.cfg (.setConfig 1 480 3 160) = some c160 ∧ validConfig ready.cfg c160 = true ∧
      needsReconf ready c160 = true ∧ cfgOk (at160 0).cfg = true ∧ Ready (at160 0) ∧
      clockTarget (at160 0).cfg (.setCpuFreq 40) = some (xtalNative (at160 0).cfg) ∧
      validConfig (at160 0).cfg (xtalNative (at160 0).cfg) = true :=
  ⟨by decide, ⟨rfl, rfl⟩, by decide, by decide, by decide, by decide, by decide, ⟨rfl, rfl⟩,
    by decide, by decide⟩

/-- V-SC8 and V-RS1: the PLL entry off by one, and the frequency 0. -/
theorem test_witness_ClockRequestsRefused :
    Ready ready ∧ decodeValidConfig ready.cfg 1 480 3 161 = none ∧ resolve ready.cfg 0 = none ∧
      resolve ready.cfg 41 = none :=
  ⟨⟨rfl, rfl⟩, by decide, by decide, by decide⟩

/-- V-SC2 and V-PL5. -/
theorem test_witness_FastPathSkipsTheHandshake :
    Ready (at160 0) ∧ clockTarget (at160 0).cfg (.setCpuFreq 240) = some (Config.ex40Entry 2 240) ∧
      (Config.ex40Entry 2 240).source = .pll 0 ∧ (pllAt (at160 0) 0).enabled = true ∧
      (pllAt (at160 0) 0).configuredFreqMhz = (Config.ex40Entry 2 240).sourceFreqMhz ∧
      (∃ t, exec (.setCpuFreq 240) (at160 0) = .next t) ∧
      (Ready (pllOn 480 0) ∧ pllIdOk (pllOn 480 0).cfg 0 = true ∧ 1 ≤ (40 : Word).toNat ∧ 1 ≤ (480 : Word).toNat ∧
        (pllAt (pllOn 480 0) 0).enabled = true ∧ (pllOn 480 0).clk.cur.source = .crystal ∧
        (pllAt (pllOn 480 0) 0).configuredFreqMhz = 480) :=
  ⟨⟨rfl, rfl⟩, by decide, rfl, by decide, by decide, ⟨_, rfl⟩, ⟨rfl, rfl⟩, by decide, by decide,
    by decide, by decide, rfl, by decide⟩

/-- V-SC6, one write before its end: the applied configuration changes in the step of the last micro-step. -/
theorem test_witness_ClockStateChangesOnlyAtApplyEnd :
    ∃ s t : State, s = willDo (.sequencer false) (run (.setCpuFreq 20) (List.replicate 6 false) ready) ∧
      step s = .next t ∧ t.clk.cur ≠ s.clk.cur :=
  ⟨_, _, rfl, rfl, by decide⟩

theorem test_witness_SwitchPassesThroughCrystal :
    Ready (at160 0) ∧
      clockTarget (at160 0).cfg (.setConfig 2 20 1 20) =
        some { source := .fastRc, sourceFreqMhz := 20, divider := intFraction 1, freqMhz := 20 } ∧
      ∃ t, exec (.setConfig 2 20 1 20) (at160 0) = .next t :=
  ⟨⟨rfl, rfl⟩, by decide, _, rfl⟩

/-- The smallest old frequency, and one of each clause. -/
theorem test_witness_StepFiveRescales :
    1 ≤ (1 : Word).toNat ∧ 1 ≤ (40 : Word).toNat ∧ (40 : Word).toNat ≤ (40 : Word).toNat ∧
      (doStepFive 40 40 (at160 0)).clk.cycleCounter = 1600 := by decide

/-- V-RT1: the largest counter that fits on the way. -/
theorem test_witness_RescaleRoundTrip :
    1 ≤ (240 : Word).toNat ∧ 1 ≤ (160 : Word).toNat ∧
      (100 : Word).toNat * (160 : Word).toNat / (240 : Word).toNat < 2 ^ 32 ∧
      (0x3FFFFFFF : Word).toNat * (160 : Word).toNat / (40 : Word).toNat < 2 ^ 32 := by decide

/-- (U): 80 to 240 MHz on the PLL. (D): 240 MHz on the PLL to the crystal. -/
theorem test_witness_MonotoneMovesAreSafe :
    fractionOk Config.ex40 (Config.ex40Entry 6 80).divider = true ∧ fractionOk Config.ex40 (Config.ex40Entry 2 240).divider = true ∧
      (∀ b ∈ chain Config.ex40, 1 ≤ (busDiv (busDivs Config.ex40 (Config.ex40Entry 6 80)) b).toNat ∧
        1 ≤ (busDiv (busDivs Config.ex40 (Config.ex40Entry 2 240)) b).toNat) ∧
      withinLimits Config.ex40 (settledFreqs Config.ex40 (Config.ex40Entry 6 80)) = true ∧
      withinLimits Config.ex40 (settledFreqs Config.ex40 (Config.ex40Entry 2 240)) = true ∧
      goesUp (Config.ex40Entry 6 80) (Config.ex40Entry 2 240) = true ∧
      muxFirst (Config.ex40Entry 6 80) (Config.ex40Entry 2 240) = false ∧
      freqsAtMost 1 (settledFreqs Config.ex40 (Config.ex40Entry 6 80)) (settledFreqs Config.ex40 (Config.ex40Entry 2 240)) := by
  refine ⟨by decide, by decide, by decide, by decide, by decide, by decide, by decide, ?_⟩
  intro j hj p q hp hq
  have hj' : j < 4 := by have : j + 1 < 5 := hj; omega
  interval_cases j <;> (cases hp; cases hq; decide)

theorem test_witness_MonotoneMovesAreSafe_down :
    goesUp (Config.ex40Entry 2 240) (xtalNative Config.ex40) = false ∧
      muxFirst (Config.ex40Entry 2 240) (xtalNative Config.ex40) = true ∧
      (∀ b ∈ chain Config.ex40, 1 ≤ (busDiv (busDivs Config.ex40 (Config.ex40Entry 2 240)) b).toNat ∧
        1 ≤ (busDiv (busDivs Config.ex40 (xtalNative Config.ex40)) b).toNat) ∧
      withinLimits Config.ex40 (settledFreqs Config.ex40 (xtalNative Config.ex40)) = true ∧
      freqsAtMost 1 (settledFreqs Config.ex40 (xtalNative Config.ex40)) (settledFreqs Config.ex40 (Config.ex40Entry 2 240)) := by
  refine ⟨by decide, by decide, by decide, by decide, ?_⟩
  intro j hj p q hp hq
  have hj' : j < 4 := by have : j + 1 < 5 := hj; omega
  interval_cases j <;> (cases hp; cases hq; decide)

theorem test_witness_NoBusEverExceedsItsMaximum :
    CfgWellFormed Config.ex40 ∧
      ∃ t, runActions [.hostWrite 0x60000104 4 160, .hostWrite 0x60000100 4 0x01000000, .accept 0, .sequencer true]
        (State.resetOf Config.ex40) = .next t :=
  ⟨test_ex40_wellFormed, _, rfl⟩

/-- The CPU moving from 160 to 80 MHz on its PLL, two of the six writes of `apply` made, the third to come. -/
def moving : State := willDo (.sequencer true) (run (.setCpuFreq 80) [true, true] (at160 0))

/-- The invariant of the bus limits inside an `apply`, with a step to take. -/
theorem test_witness_NoBusEverExceedsItsMaximum_inv : BusInv moving ∧ ∃ t, step moving = .next t := by
  have hrun : ∀ k : ClockConfig, k.source = .pll 0 → k.sourceFreqMhz = 480 → runsIn (pllsOf moving) k := by
    intro k h1 h2 q hq
    obtain rfl : q = 0 := by rw [h1] at hq; exact (ClockSource.pll.inj hq).symm
    rw [h2]; decide
  refine ⟨⟨test_ex40_wellFormed, by decide, by decide, hrun _ rfl rfl, .inr ⟨Config.ex40Entry 6 80, 2, by decide,
    hrun _ rfl rfl, ⟨by decide, by decide, by decide⟩, .inr ⟨rfl, [.stepFive 160 80, .finish .plain], by decide, ?_⟩⟩⟩, _, rfl⟩
  exact ⟨trivial, trivial, trivial⟩

theorem test_witness_ClockSwitchKeepsBusLimits :
    CfgWellFormed (at160 0).cfg ∧ Ready (at160 0) ∧ Settled (at160 0) ∧ validConfig (at160 0).cfg (at160 0).clk.cur = true ∧
      clockTarget (at160 0).cfg (.setCpuFreq 80) = some (Config.ex40Entry 6 80) ∧
      validConfig (at160 0).cfg (Config.ex40Entry 6 80) = true ∧ ∃ t, exec (.setCpuFreq 80) (at160 0) = .next t :=
  ⟨test_ex40_wellFormed, ⟨rfl, rfl⟩, ⟨rfl, rfl, by decide, by decide⟩, by decide, by decide,
    by decide, _, rfl⟩

theorem test_witness_ClockSwitchTimesOut :
    cfgOk ready.cfg = true ∧ Ready ready ∧ clockTarget ready.cfg (.setCpuFreq 160) = some c160 ∧
      validConfig ready.cfg c160 = true ∧ c160.source = .pll 0 ∧ needsReconf ready c160 = true ∧
      goesThroughCrystal ready c160 = false :=
  ⟨by decide, ⟨rfl, rfl⟩, by decide, by decide, rfl, by decide, by decide⟩

/-- The other clause: the CPU on a PLL that is not at its frequency goes through the crystal. -/
theorem test_witness_ClockSwitchTimesOut_fromPll :
    Ready { at160 0 with plls := (pllOn 320 0).plls } ∧
      needsReconf { at160 0 with plls := (pllOn 320 0).plls } c160 = true ∧
      goesThroughCrystal { at160 0 with plls := (pllOn 320 0).plls } c160 = true := ⟨⟨rfl, rfl⟩, by decide, by decide⟩

/-- The first PLL the chip does not have, and the last one it has. -/
theorem test_witness_PllEnableRuns :
    cfgOk ready.cfg = true ∧ Ready ready ∧ ready.cfg.nPll ≤ (1 : PllId).toNat ∧ (0 : PllId).toNat < ready.cfg.nPll :=
  ⟨by decide, ⟨rfl, rfl⟩, by decide, by decide⟩

/-- The last allowed poll of three. -/
theorem test_witness_PllCfgCalSucceeds :
    cfgOk (pllOn 0 0).cfg = true ∧ Ready (pllOn 0 0) ∧ pllIdOk (pllOn 0 0).cfg 0 = true ∧ 1 ≤ (40 : Word).toNat ∧
      1 ≤ (1 : Word).toNat ∧ (pllAt (pllOn 0 0) 0).enabled = true ∧ (pllOn 0 0).clk.cur.source = .crystal ∧
      2 < (pllOn 0 0).cfg.calTimeoutPolls :=
  ⟨by decide, ⟨rfl, rfl⟩, by decide, by decide, by decide, by decide, rfl, by decide⟩

theorem test_witness_PllCfgCalTimesOut :
    cfgOk (pllOn 320 0).cfg = true ∧ Ready (pllOn 320 0) ∧ pllIdOk (pllOn 320 0).cfg 0 = true ∧ 1 ≤ (40 : Word).toNat ∧
      1 ≤ (480 : Word).toNat ∧ (pllAt (pllOn 320 0) 0).enabled = true ∧ (pllOn 320 0).clk.cur.source = .crystal :=
  ⟨by decide, ⟨rfl, rfl⟩, by decide, by decide, by decide, by decide, rfl⟩

/-- V-PL4, one state for each check. -/
theorem test_witness_PllCfgCalRefusals :
    Ready ready ∧ ready.cfg.nPll ≤ (1 : PllId).toNat ∧ (0 : PllId).toNat < ready.cfg.nPll ∧ (pllAt ready 0).enabled = false ∧
      Ready (at160 0) ∧ (pllAt (at160 0) 0).enabled = true ∧ (at160 0).clk.cur.source ≠ .crystal :=
  ⟨⟨rfl, rfl⟩, by decide, by decide, by decide, ⟨rfl, rfl⟩, by decide, by decide⟩

/-- V-PL7, V-PL8: not there, in use, held by a consumer, free. -/
theorem test_witness_PllDisableRuns :
    cfgOk ready.cfg = true ∧ Ready (at160 0) ∧ (1 : PllId).toNat ≥ (at160 0).cfg.nPll ∧ (at160 0).clk.cur.source = .pll 0 ∧
      (0 : PllId).toNat < (at160 0).cfg.nPll ∧ Ready (pllOn 480 1) ∧ (pllOn 480 1).clk.cur.source ≠ .pll 0 ∧
      (pllAt (pllOn 480 1) 0).consumerCount ≠ 0 ∧ Ready (pllOn 480 0) ∧ (pllOn 480 0).clk.cur.source ≠ .pll 0 ∧
      (pllAt (pllOn 480 0) 0).consumerCount = 0 :=
  ⟨by decide, ⟨rfl, rfl⟩, by decide, rfl, by decide, ⟨rfl, rfl⟩, by decide, by decide, ⟨rfl, rfl⟩,
    by decide, by decide⟩

/-- V-PL10: the largest count, and the largest that can still grow. -/
theorem test_witness_PllAddConsumerRuns :
    cfgOk ready.cfg = true ∧ (pllOn 0 0).fault.halted = false ∧ (pllOn 0 0).cfg.nPll ≤ (1 : PllId).toNat ∧
      (0 : PllId).toNat < (pllOn 0 0).cfg.nPll ∧ (pllAt (pllOn 0 0xFFFFFFFF) 0).consumerCount.toNat = 2 ^ 32 - 1 ∧
      (pllAt (pllOn 0 0xFFFFFFFE) 0).consumerCount.toNat < 2 ^ 32 - 1 := by decide

/-- V-PL10: counts 0 and 1. -/
theorem test_witness_PllRemoveConsumerRuns :
    cfgOk ready.cfg = true ∧ (pllOn 0 1).fault.halted = false ∧ (pllOn 0 1).cfg.nPll ≤ (255 : PllId).toNat ∧
      (0 : PllId).toNat < (pllOn 0 1).cfg.nPll ∧ (pllAt ready 0).consumerCount = 0 ∧ ready.seq.busy = false ∧
      (pllAt (pllOn 0 1) 0).consumerCount ≠ 0 := by decide

/-- V-FT1 in small: core 1's op runs, core 0 removes at count 0. -/
theorem test_witness_FatalFaultAbandonsTheRunningOp :
    (setEnv ready.env busyState).fault.halted = false ∧ pllIdOk (setEnv ready.env busyState).cfg 0 = true ∧
      (pllAt (setEnv ready.env busyState) 0).consumerCount = 0 ∧ (setEnv ready.env busyState).seq.busy = true ∧
      (setEnv ready.env busyState).seq.owner ≠ (setEnv ready.env busyState).env.picked := by decide

theorem test_witness_OnlyConsumerOpsChangeTheCount :
    ∃ t, step (ready.withFetchWord 32 0x03000000) = .next t ∧
      (pllAt t 0).consumerCount ≠ (pllAt (ready.withFetchWord 32 0x03000000) 0).consumerCount :=
  ⟨_, rfl, by decide⟩

/-- The flag words that power the crystal down and that keep it, and the LP clock's clause. -/
theorem test_witness_BudgetIsMonotoneInPdXtal :
    pdXtal 1 = true ∧ pdXtal 0xFFFFFFFE = false ∧
      usOfLp (150000 : Word).toNat Config.ex40.lp.clkPowerOnWaitCycles.toNat ≤ Config.ex40.lp.xtalStableWaitUs.toNat := by
  decide

/-- V-BP1, V-BP6, and the smallest LP clock. -/
theorem test_witness_BuildParamsRuns :
    Ready ready ∧ modeFlagsOk ready.cfg 0x12 = true ∧ modeFlagsOk ready.cfg 0x01 = true ∧ 1 ≤ ready.slp.lpClkFreqHz.toNat ∧
      budgetFits (wideBudget ready.cfg ready.slp.lpClkFreqHz ready.clk.cur.freqMhz 0x12 0 0) = true ∧
      budgetFits (wideBudget ready.cfg 1 ready.clk.cur.freqMhz 0x12 0 0) = true :=
  ⟨⟨rfl, rfl⟩, by decide, by decide, by decide, by decide, by decide⟩

/-- V-BP7, in the order of the checks. -/
theorem test_witness_BudgetRefusals :
    Ready ready ∧ modeFlagsOk ready.cfg 0x10 = false ∧ modeFlagsOk State.reset.cfg 0x12 = true ∧
      State.reset.slp.lpClkFreqHz = 0 ∧ ready.slp.lpClkFreqHz ≠ 0 ∧
      budgetFits (wideBudget ready.cfg ready.slp.lpClkFreqHz ready.clk.cur.freqMhz 0x12 0 0xFFFFFFFF) = false ∧
      budgetFits (wideBudget ready.cfg ready.slp.lpClkFreqHz ready.cfg.xtalFreqMhz 0x12 0 0xFFFFFFFF) = false :=
  ⟨⟨rfl, rfl⟩, by decide, by decide, rfl, by decide, by decide, by decide⟩

theorem test_witness_ProgramRuns :
    Ready (built false) ∧ (built false).slp.state = .paramsBuilt ∧
      (List.replicate 18 true).length = (programEvents (built false).slp (built false).cfg.hasModemMode).length :=
  ⟨⟨rfl, rfl⟩, rfl, rfl⟩

/-- V-PG2: nothing built, and built but not programmed. -/
theorem test_witness_SleepOrderRefusals :
    Ready ready ∧ ready.slp.state ≠ .paramsBuilt ∧ Ready (built false) ∧ (built false).slp.programmed = false :=
  ⟨⟨rfl, rfl⟩, by decide, ⟨rfl, rfl⟩, rfl⟩

/-- Off, and on. -/
theorem test_witness_RegdmaEnRuns :
    Ready ready ∧ ready.slp.regdmaEnabled = false ∧ Ready (run .regdmaEn [true] ready) ∧
      (run .regdmaEn [true] ready).slp.regdmaEnabled = true :=
  ⟨⟨rfl, rfl⟩, rfl, ⟨rfl, rfl⟩, rfl⟩

/-- On, and off. -/
theorem test_witness_RegdmaDisRuns :
    Ready (run .regdmaEn [true] ready) ∧ (run .regdmaEn [true] ready).slp.regdmaEnabled = true ∧ Ready ready ∧
      ready.slp.regdmaEnabled = false :=
  ⟨⟨rfl, rfl⟩, rfl, ⟨rfl, rfl⟩, rfl⟩

/-- Reject line 31. -/
theorem test_witness_EnterRejected :
    Ready (withLines 0 0x80000000 (built true)) ∧ (withLines 0 0x80000000 (built true)).slp.state = .paramsBuilt ∧
      (withLines 0 0x80000000 (built true)).slp.programmed = true ∧
      (withLines 0 0x80000000 (built true)).env.rejectLines &&& 0x80000000 ≠ 0 ∧ (List.replicate 6 true).length = 6 ∧
      SleepBitsInv (withLines 0 0x80000000 (built true)) :=
  ⟨⟨rfl, rfl⟩, rfl, rfl, by decide, rfl, ⟨⟨.nil, by decide⟩, by decide, by decide, by decide, by decide, by decide⟩⟩

/-- V-EN3: reject lines up but not enabled. -/
theorem test_witness_EnterWoken :
    Ready (withLines 1 0xFFFFFFFF (built true)) ∧ (withLines 1 0xFFFFFFFF (built true)).slp.state = .paramsBuilt ∧
      (withLines 1 0xFFFFFFFF (built true)).slp.programmed = true ∧
      (withLines 1 0xFFFFFFFF (built true)).env.rejectLines &&& 0 = 0 ∧
      (withLines 1 0xFFFFFFFF (built true)).env.wakeLines &&& 1 ≠ 0 :=
  ⟨⟨rfl, rfl⟩, rfl, rfl, by decide, by decide⟩

/-- V-EN4; then the sleeping state with host accesses, other wake lines and reject lines to come. -/
theorem test_witness_EnterNeverEndsWithoutAWake :
    (Ready (built true) ∧ (built true).slp.state = .paramsBuilt ∧ (built true).slp.programmed = true ∧
      (built true).env.rejectLines &&& 0 = 0 ∧ (built true).env.wakeLines &&& 0 = 0) ∧
      SleepingIdle asleepState ∧
      (∀ a ∈ [Action.setWakeLines 0xFFFFFFFB, .hostRead 0x60000000 4, .setRejectLines 1, .sequencer true],
        noWakeIn asleepState.slp.wakeEn a) ∧
      ∃ u, runActions [.setWakeLines 0xFFFFFFFB, .hostRead 0x60000000 4, .setRejectLines 1, .sequencer true] asleepState =
        .next u := by
  refine ⟨⟨⟨rfl, rfl⟩, rfl, rfl, by decide, by decide⟩, ⟨rfl, rfl, rfl, rfl, rfl, rfl, by decide⟩, ?_,
    _, rfl⟩
  intro a ha
  fin_cases ha <;> trivial

/-- The halting case: core 1 removes a consumer of PLL 0 at count 0. -/
theorem test_witness_EnterNeverEndsWithoutAWake_halted :
    SleepingIdle asleepState ∧ noWakeIn asleepState.slp.wakeEn (.accept 1) ∧ asleepState.fault.halted = false ∧
      (took (runActions [.hostWrite 0x60000140 4 0x04000000, .accept 1] asleepState)).fault =
        { halted := true, code := 0x03, info := pllFaultInfo 0 2 } :=
  ⟨⟨rfl, rfl, rfl, rfl, rfl, rfl, by decide⟩, trivial, rfl, by decide⟩

/-- A list of timer steps with ticks that come too early and one that wakes. -/
theorem test_witness_WakeSequenceSpendsTheBudget_count :
    (withLines 4 0 asleepState).slp.asleep = true ∧ (withLines 4 0 asleepState).slp.wtPhase = .off ∧
      (took (runActions [.lpTick, .wakeTrigger, .lpDone, .lpTick, .hpTick, .lpTick, .lpTick, .lpDone, .hpDone, .hpTick, .hpDone]
        (withLines 4 0 asleepState))).slp.wakeupOccurred = true := by decide

theorem test_witness_WakeSequenceSpendsTheBudget :
    ready.slp.asleep = false ∧ (withLines 4 0 asleepState).slp.asleep = true ∧ (withLines 4 0 asleepState).slp.wtPhase = .off ∧
      (withLines 4 0 asleepState).slp.wakeupOccurred = false ∧
      (withLines 4 0 asleepState).env.wakeLines &&& (withLines 4 0 asleepState).slp.wakeEn ≠ 0 ∧
      (took (runActions ((wakeSchedule (withLines 4 0 asleepState).slp.hwwait).take 5) (withLines 4 0 asleepState))).slp.asleep =
        true := by decide

/-- P3. -/
theorem test_witness_EnterSleepRejectedRestores :
    cfgOk (withLines 0 1 (at160 0)).cfg = true ∧ Ready (withLines 0 1 (at160 0)) ∧
      modeFlagsOk (withLines 0 1 (at160 0)).cfg 0x12 = true ∧ 1 ≤ (withLines 0 1 (at160 0)).slp.lpClkFreqHz.toNat ∧
      budgetFits (wideBudget (withLines 0 1 (at160 0)).cfg (withLines 0 1 (at160 0)).slp.lpClkFreqHz
        (withLines 0 1 (at160 0)).cfg.xtalFreqMhz 0x12 0 0) = true ∧
      sourceHeld (withLines 0 1 (at160 0)).clk.cur = true ∧ (withLines 0 1 (at160 0)).env.rejectLines &&& 1 ≠ 0 :=
  ⟨by decide, ⟨rfl, rfl⟩, by decide, by decide, by decide, by decide, by decide⟩

/-- The three clauses on the current PLL frequency: calibrated again, held by a consumer, on the crystal. -/
theorem test_witness_EnterSleepRejectedRestores_pll :
    (at160 0).clk.cur.source = .pll 0 ∧ recalibrates (at160 0) 0 ∧ (at160 1).clk.cur.source = .pll 0 ∧
      ¬recalibrates (at160 1) 0 ∧ ∀ p, ready.clk.cur.source ≠ .pll p := by
  refine ⟨rfl, ?_, rfl, ?_, fun p => by decide +revert⟩ <;> unfold recalibrates <;> decide

/-- P3, the waking variant. -/
theorem test_witness_EnterSleepWakesAndRestores :
    cfgOk (withLines 4 0 (at160 0)).cfg = true ∧ Ready (withLines 4 0 (at160 0)) ∧
      modeFlagsOk (withLines 4 0 (at160 0)).cfg 0x12 = true ∧ 1 ≤ (withLines 4 0 (at160 0)).slp.lpClkFreqHz.toNat ∧
      budgetFits (wideBudget (withLines 4 0 (at160 0)).cfg (withLines 4 0 (at160 0)).slp.lpClkFreqHz
        (withLines 4 0 (at160 0)).cfg.xtalFreqMhz 0x12 0 0) = true ∧
      sourceHeld (withLines 4 0 (at160 0)).clk.cur = true ∧ (withLines 4 0 (at160 0)).env.rejectLines &&& 0 = 0 ∧
      (withLines 4 0 (at160 0)).env.wakeLines &&& 4 ≠ 0 :=
  ⟨by decide, ⟨rfl, rfl⟩, by decide, by decide, by decide, by decide, by decide,
    by decide⟩

/-- P5, with a reject line in place of the wake. -/
theorem test_witness_EnterSleepRestoreTimesOut :
    Ready (withLines 0 1 (at160 0)) ∧ validConfig (withLines 0 1 (at160 0)).cfg (withLines 0 1 (at160 0)).clk.cur = true ∧
      (withLines 0 1 (at160 0)).clk.cur.source = .pll 0 ∧ (pllAt (withLines 0 1 (at160 0)) 0).consumerCount = 0 ∧
      (run (.enterSleep false 0 1 0x12 0 0) (List.replicate 46 true ++ List.replicate 3 false)
        (withLines 0 1 (at160 0))).fault.halted = true :=
  ⟨⟨rfl, rfl⟩, by decide, rfl, by decide, by decide +kernel⟩

/-- P5: the wake. -/
theorem test_witness_EnterSleepRestoreTimesOut_woken :
    cfgOk (withLines 4 0 (at160 0)).cfg = true ∧ Ready (withLines 4 0 (at160 0)) ∧
      modeFlagsOk (withLines 4 0 (at160 0)).cfg 0x12 = true ∧ 1 ≤ (withLines 4 0 (at160 0)).slp.lpClkFreqHz.toNat ∧
      budgetFits (wideBudget (withLines 4 0 (at160 0)).cfg (withLines 4 0 (at160 0)).slp.lpClkFreqHz
        (withLines 4 0 (at160 0)).cfg.xtalFreqMhz 0x12 0 0) = true ∧
      validConfig (withLines 4 0 (at160 0)).cfg (withLines 4 0 (at160 0)).clk.cur = true ∧
      (withLines 4 0 (at160 0)).clk.cur.source = .pll 0 ∧ (pllAt (withLines 4 0 (at160 0)) 0).consumerCount = 0 ∧
      (withLines 4 0 (at160 0)).env.rejectLines &&& 0 = 0 ∧ (withLines 4 0 (at160 0)).env.wakeLines &&& 4 ≠ 0 :=
  ⟨by decide, ⟨rfl, rfl⟩, by decide, by decide, by decide, by decide, rfl, by decide, by decide, by decide⟩

/-- The largest mode index there is, the smallest there is not, and the Modem mode with and without it. -/
theorem test_witness_CfgPwrModeDefaultsRuns :
    ready.fault.halted = false ∧ 4 < (5 : BitVec 3).toNat ∧
      ready.cfg.pmtDefault[(4 : BitVec 3).toNat]? = some ⟨0x3, 0x30, 0x20C, 1, 0⟩ ∧ ready.cfg.hasModemMode = true ∧
      (State.resetOf { Config.ex40 with hasModemMode := false }).cfg.hasModemMode = false := by decide

/-- The last register of each range that there is and the first that there is not: a PLL, a core, a mode word, a Modem entry. -/
theorem test_witness_HostReadsHaveNoEffect_registers :
    (0 : PllId).toNat < (at160 2).cfg.nPll ∧ readReg (at160 2) 0x084 = 480 ∧ readReg (at160 2) 0x088 = 2 ∧
      (at160 2).cfg.nPll ≤ 1 ∧ readReg (at160 2) 0x094 = 0 ∧ (1 : Core).val < ready.cfg.nCores ∧ ready.cfg.nCores ≤ 2 ∧
      ready.cfg.hasModemMode = true ∧ readReg ready 0x390 = 0 ∧ readReg ready 0x388 = 0x20C ∧ readReg ready 0x3A8 = 0xC3 ∧
      (State.resetOf { Config.ex40 with hasModemMode := false }).cfg.hasModemMode = false := by decide

/-- The first and the last word, and accesses that are not admitted. -/
theorem test_witness_HostReadsHaveNoEffect :
    windowOffset ready.cfg 0x60000000 < 0x1000 ∧ windowOffset ready.cfg 0x60000FFC < 0x1000 ∧
      (0x60000FFC : Word).toNat % 4 = 0 ∧ ¬((4 : Nat) = 4 ∧ (0x60000001 : Word).toNat % 4 = 0) ∧
      ¬((2 : Nat) = 4 ∧ (0x60000000 : Word).toNat % 4 = 0) := by decide

theorem test_witness_HostWritesReachTheirRegisters :
    cfgOk ready.cfg = true ∧ (∃ addr : Nat → Word, ∀ off, addr off = ready.cfg.cscBase + BitVec.ofNat 32 off) ∧
      (1 : Core).val < ready.cfg.nCores ∧ ready.cfg.hasModemMode = true ∧
      readReg (took (act (.hostWrite 0x60000348 4 0x105) ready)) 0x348 = 0x105 ∧
      (mboxAt (took (act (.hostWrite 0x60000140 4 7) ready)) 1).cmd = 7 :=
  ⟨by decide, ⟨_, fun _ => rfl⟩, by decide, rfl, by decide, by decide⟩

/-- A read-only view, a reserved offset, a core that is not there, a Modem entry of a chip without the mode. -/
theorem test_witness_OtherHostWritesAreIgnored :
    writeReg 0x000 1 ready = ready ∧ writeReg 0xFFC 1 ready = ready ∧ writeReg 0x180 1 ready = ready ∧
      writeReg 0x3A8 1 (State.resetOf { Config.ex40 with hasModemMode := false }) =
        State.resetOf { Config.ex40 with hasModemMode := false } ∧
      (0x60000FFC : Word) = ready.cfg.cscBase + BitVec.ofNat 32 0xFFC := ⟨rfl, rfl, rfl, rfl, by decide⟩

/-- The last PLL there is and the first there is not, and the second core's `STATUS`. -/
theorem test_witness_PackedViewsReadTheirFields :
    (1 : Core).val < busyState.cfg.nCores ∧ readReg busyState 0x034 = 0x101 ∧ readReg busyState 0x158 = 2 ∧
      (0 : PllId).toNat < (at160 0).cfg.nPll ∧ readReg (at160 0) 0x080 = 1 ∧ (at160 0).cfg.nPll ≤ (1 : PllId).toNat ∧
      readReg (at160 0) 0x090 = 0 ∧ readReg (at160 0) 0x008 = 3 := by decide

theorem test_witness_HaltFreezesTheBlock :
    (willDo (.addCycles 5) (haltedAt ready)).fault.halted = true ∧
      (∃ t, step (willDo (.addCycles 5) (haltedAt ready)) = .next t) ∧
      nextAction (willDo (.addCycles 5) (haltedAt ready)) ≠ .reset :=
  ⟨rfl, ⟨_, rfl⟩, by decide⟩

theorem test_witness_StepKeepsClockStateInv :
    ClockStateInv (ready.withFetchWord 32 0x20000000) ∧ ∃ t, step (ready.withFetchWord 32 0x20000000) = .next t :=
  ⟨rfl, _, rfl⟩

theorem test_witness_StepKeepsMailboxInv :
    MailboxInv (willDo (.sequencer true) busyState) ∧ ∃ t, step (willDo (.sequencer true) busyState) = .next t :=
  ⟨⟨by decide, by decide, by decide, by decide, by decide⟩, _, rfl⟩

theorem test_witness_StepKeepsSleepBitsInv :
    SleepBitsInv (willDo .wakeTrigger (withLines 4 0 asleepState)) ∧
      ∃ t, step (willDo .wakeTrigger (withLines 4 0 asleepState)) = .next t := by
  refine ⟨⟨⟨?_, by decide⟩, by decide, by decide, by decide, fun _ => .inr ⟨rfl, rfl⟩,
    by decide⟩, _, rfl⟩
  show List.IsChain handshakeOrder [.pollStatus, .pollAux, .enterEnd, .finish .sleepResult]
  simp [handshakeOrder]

theorem test_witness_StepKeepsCalibrationInv :
    CalibrationInv (willDo (.sequencer true) (took (exec (.pllCfgCal 0 40 480) (pllOn 480 0)))) ∧
      ∃ t, step (willDo (.sequencer true) (took (exec (.pllCfgCal 0 40 480) (pllOn 480 0)))) = .next t := by
  refine ⟨⟨by decide, by decide, by decide, by decide, rfl, rfl, ?_⟩, _, rfl⟩
  show calReady _ [] [.calDivide 0 40 480, .calStart 0, .calPoll 0 none, .calStop 0 480, .finish .plain]
  refine ⟨rfl, by decide, rfl, by decide, rfl, by decide, rfl, by decide, rfl, by decide, trivial⟩

theorem test_witness_InvariantsHoldAtReset : cfgOk Config.ex40 = true ∧ CfgWellFormed Config.ex40 :=
  ⟨by decide, test_ex40_wellFormed⟩

theorem test_witness_ChipIsFixedAndTraceGrows :
    ∃ t, step (willDo (.sequencer true) busyState) = .next t ∧ t.trace = busyState.trace ++ [.w (.pllPwr 0) 1] :=
  ⟨_, rfl, by decide⟩

end Sys2Proof.Tests
end

section
/-! The trace and the chip description under every action (00_scope.md R8, 20_memory.md R44, R51, R52): which event each
micro-step emits, that nothing but a micro-step emits, and that nothing changes the chip. -/

namespace Sys2Proof.Machine

/-! ### What the bodies of the micro-steps emit -/

@[simp] theorem pllEnableBody_trace (id : PllId) (s : State) :
    (pllEnableBody id s).trace = s.trace ++ [.w (.pllPwr id) 1] := rfl

@[simp] theorem pllDisableBody_trace (id : PllId) (s : State) :
    (pllDisableBody id s).trace = s.trace ++ [.w (.pllPwr id) 0] := by
  simp [pllDisableBody]

@[simp] theorem doCalDivide_trace (id : PllId) (x t : Word) (s : State) :
    (doCalDivide id x t s).trace = s.trace ++ [.w (.pllDiv id) (Config.pllDivWords id x t)] := by
  simp [doCalDivide]

@[simp] theorem doCalStart_trace (id : PllId) (s : State) :
    (doCalStart id s).trace = s.trace ++ [.b (.calStart id) 1] := rfl

@[simp] theorem calPolled_trace (id : PllId) (a : Bool) (s : State) :
    (calPolled id a s).trace = s.trace ++ [.r (.calDone id) (bit a)] := rfl

@[simp] theorem doCalStop_trace (id : PllId) (t : Word) (s : State) :
    (doCalStop id t s).trace = s.trace ++ [.b (.calStop id) 1] := rfl

@[simp] theorem doProgWrite_trace (f : RegField) (s : State) :
    (doProgWrite f s).trace = s.trace ++ [.w f (progValue s.slp f)] := rfl

@[simp] theorem doRegdmaWrite_trace (on : Bool) (s : State) :
    (doRegdmaWrite on s).trace = s.trace ++ [.w .regdmaBackupEn (bit on)] := rfl

@[simp] theorem doWakeType_trace (deep : Bool) (s : State) :
    (doWakeType deep s).trace = s.trace ++ [.w .wakeType (bit deep)] := rfl

@[simp] theorem doWakeEn_trace (wk : Word) (s : State) : (doWakeEn wk s).trace = s.trace ++ [.w .wakeEn wk] := rfl

@[simp] theorem doRejectEn_trace (rj : Word) (s : State) : (doRejectEn rj s).trace = s.trace ++ [.w .rejectEn rj] := rfl

@[simp] theorem doIntClr_trace (s : State) : (doIntClr s).trace = s.trace ++ [.w .intClr 3] := rfl

@[simp] theorem doSleepStart_trace (s : State) : (doSleepStart s).trace = s.trace ++ [.w .sleepStart 1] := rfl

/-- The timeout of the calibration loop emits nothing of its own: the poll has its event already (41_pll.md R103). -/
@[simp] theorem calTimeout_trace (id : PllId) (o : Option Word) (s : State) : (calTimeout id o s).trace = s.trace := by
  cases o <;> simp [calTimeout]

@[simp] theorem calTimeout_cfg (id : PllId) (o : Option Word) (s : State) : (calTimeout id o s).cfg = s.cfg := by
  cases o <;> simp [calTimeout]

/-! ### The event of a micro-step -/

/-- The write of a PLL disable, which happens only where the PLL has no consumer (40_clocktree.md R90, 41_pll.md R107). -/
def disableEvent (id : PllId) (s : State) : Option Event :=
  if (pllAt s id).consumerCount = 0 then some (.w (.pllPwr id) 0) else none

/-- The one event of a micro-step, if it has one (20_memory.md R52); `runMicro_trace` ties it to `runMicro`. -/
def microEvent (answer : Bool) (s : State) : Micro → Option Event
  | .applyWrite t f => some (.w f (applyValue s.cfg t f))
  | .dropPll id => disableEvent id s
  | .pllEnable id => some (.w (.pllPwr id) 1)
  | .pllDisable id => disableEvent id s
  | .calDivide id x t => some (.w (.pllDiv id) (Config.pllDivWords id x t))
  | .calStart id => some (.b (.calStart id) 1)
  | .calPoll id _ => some (.r (.calDone id) (bit answer))
  | .calStop id _ => some (.b (.calStop id) 1)
  | .progWrite f => some (.w f (progValue s.slp f))
  | .regdmaWrite on => some (.w .regdmaBackupEn (bit on))
  | .wakeType deep => some (.w .wakeType (bit deep))
  | .wakeEn mask => some (.w .wakeEn mask)
  | .rejectEn mask => some (.w .rejectEn mask)
  | .intClr => some (.w .intClr 3)
  | .sleepStart => some (.w .sleepStart 1)
  | .pollStatus => some (.r .intStatus (intStatusWord s.slp))
  | .pollAux => some (.r .auxIdle (bit answer))
  | .setConfig _ | .restoreSaved | .bringUp _ _ | .apply _ | .program | .applyEnd _ | .stepFive _ _ | .buildParams _ _ _
  | .enterEnd | .setProgrammed | .finish _ => none

theorem doDropPll_trace (id : PllId) (s : State) :
    (doDropPll id s).trace = s.trace ++ (disableEvent id s).toList := by
  unfold doDropPll disableEvent; split <;> simp

theorem doPllDisable_trace (id : PllId) (rest : List Micro) (s : State) :
    (doPllDisable id rest s).trace = s.trace ++ (disableEvent id s).toList := by
  unfold doPllDisable disableEvent; split <;> simp

@[simp] theorem doPllDisable_cfg (id : PllId) (rest : List Micro) (s : State) : (doPllDisable id rest s).cfg = s.cfg := by
  unfold doPllDisable; split <;> simp

theorem doCalPoll_trace (id : PllId) (o : Option Word) (rest : List Micro) (a : Bool) (s : State) :
    (doCalPoll id o rest a s).trace = s.trace ++ [.r (.calDone id) (bit a)] := by
  simp only [doCalPoll]; split_ifs <;> simp

@[simp] theorem doCalPoll_cfg (id : PllId) (o : Option Word) (rest : List Micro) (a : Bool) (s : State) :
    (doCalPoll id o rest a s).cfg = s.cfg := by
  simp only [doCalPoll]; split_ifs <;> simp

theorem doPollStatus_trace (rest : List Micro) (s : State) :
    (doPollStatus rest s).trace = s.trace ++ [.r .intStatus (intStatusWord s.slp)] := by
  simp only [doPollStatus]; split <;> simp

@[simp] theorem doPollStatus_cfg (rest : List Micro) (s : State) : (doPollStatus rest s).cfg = s.cfg := by
  simp only [doPollStatus]; split <;> simp

theorem doPollAux_trace (rest : List Micro) (a : Bool) (s : State) :
    (doPollAux rest a s).trace = s.trace ++ [.r .auxIdle (bit a)] := by
  simp [doPollAux]

@[simp] theorem doPollAux_cfg (rest : List Micro) (a : Bool) (s : State) : (doPollAux rest a s).cfg = s.cfg := by
  simp [doPollAux]

/-- A micro-step adds its event to the trace, and only that: the lines that follow it (`advance`) emit nothing. -/
theorem runMicro_trace (m : Micro) (rest : List Micro) (a : Bool) (s : State) :
    (runMicro m rest a s).trace = s.trace ++ (microEvent a s m).toList := by
  cases m
  case dropPll id => simp [runMicro, microEvent, doDropPll_trace]
  case pllDisable id => exact doPllDisable_trace id rest s
  case calPoll id o => exact doCalPoll_trace id o rest a s
  case pollStatus => exact doPollStatus_trace rest s
  case pollAux => exact doPollAux_trace rest a s
  all_goals simp [runMicro, microEvent]

@[simp] theorem runMicro_cfg (m : Micro) (rest : List Micro) (a : Bool) (s : State) : (runMicro m rest a s).cfg = s.cfg := by
  cases m <;> simp [runMicro]

/-- A sequencer action emits nothing, or one event of the running op (20_memory.md R52). -/
theorem sequencerStep_trace (a : Bool) (s : State) :
    (sequencerStep a s).trace = s.trace ∨
      ∃ e, s.seq.busy = true ∧ s.fault.halted = false ∧ (sequencerStep a s).trace = s.trace ++ [e] := by
  obtain hs | ⟨m, rest, hbusy, hrun, -, hs⟩ := sequencerStep_cases a s
  · exact .inl (by rw [hs])
  · rw [hs, runMicro_trace]
    cases microEvent a s m with
    | none => exact .inl (by simp)
    | some e => exact .inr ⟨e, hbusy, hrun, rfl⟩

theorem sequencerStep_cfg (a : Bool) (s : State) : (sequencerStep a s).cfg = s.cfg := by
  obtain hs | ⟨m, rest, -, -, -, hs⟩ := sequencerStep_cases a s <;> simp [hs]

/-! ### Acceptance and host writes emit nothing -/

/-- The chip description and the trace of `t` are those of `s`. -/
def SameChipAndTrace (s t : State) : Prop := t.cfg = s.cfg ∧ t.trace = s.trace

theorem StartOf.prep_sameChipAndTrace {s : State} {i : Instr} {prep : State → State} {script : List Micro}
    (h : StartOf s i prep script) : SameChipAndTrace s (prep s) := by
  cases h with
  | clock => exact ⟨discardParams_cfg s, discardParams_trace s⟩
  | sleep => exact ⟨discardParams_cfg s, discardParams_trace s⟩
  | _ => exact ⟨rfl, rfl⟩

/-- An acceptance changes no chip and emits nothing: an immediate op has no bus access, and a sequenced op has its accesses in
later micro-steps. -/
theorem exec_sameChipAndTrace (i : Instr) (s t : State) (h : exec i s = .next t) : SameChipAndTrace s t := by
  obtain ⟨k, rfl⟩ | rfl | ⟨-, -, prep, script, hstart, rfl⟩ | ⟨-, -, himm⟩ := exec_cases i s t h
  · exact ⟨rfl, rfl⟩
  · exact ⟨rfl, rfl⟩
  · obtain ⟨hcfg, htrace⟩ := hstart.prep_sameChipAndTrace
    exact ⟨by simpa using hcfg, by simpa using htrace⟩
  · obtain ⟨f, k, -, rfl⟩ | ⟨-, rfl⟩ | ⟨id, -, -, rfl⟩ | ⟨id, -, -, rfl⟩ | ⟨id, -, -, rfl⟩ | ⟨k, p, -, rfl⟩ := himm
    all_goals simp [SameChipAndTrace]

theorem acceptCommand_sameChipAndTrace (c : Core) (s t : State) (h : acceptCommand c s = .next t) :
    SameChipAndTrace s t := by
  unfold acceptCommand at h
  split at h
  · split at h
    · obtain ⟨hcfg, htrace⟩ := exec_sameChipAndTrace _ _ t h
      exact ⟨hcfg, htrace⟩
    · cases h; exact ⟨rfl, rfl⟩
  · cases h; exact ⟨rfl, rfl⟩

theorem writeReg_sameChipAndTrace (off : Nat) (v : Word) (s : State) : SameChipAndTrace s (writeReg off v s) := by
  obtain ⟨mb, z, hw, -⟩ := writeReg_frame off v s
  rw [hw]; exact ⟨rfl, rfl⟩

theorem hostWrite_sameChipAndTrace (addr : Word) (bytes : Nat) (v : Word) (s t : State)
    (h : hostWrite addr bytes v s = .next t) : SameChipAndTrace s t := by
  unfold hostWrite at h
  split at h <;> cases h
  split
  · exact writeReg_sameChipAndTrace _ v s
  · exact ⟨rfl, rfl⟩

theorem hostRead_sameChipAndTrace (addr : Word) (bytes : Nat) (s t : State)
    (h : hostRead addr bytes s = .next t) : SameChipAndTrace s t := by
  unfold hostRead at h
  split at h <;> cases h
  exact ⟨rfl, rfl⟩

/-! ### Every action, every step -/

/-- What action `a` may do to the trace between `s` and `t`: RESET empties it, a sequencer action may add one event of the
running op, and otherwise it stays (20_memory.md R44, R51, R52). -/
def TraceGrowsBy (a : Action) (s t : State) : Prop :=
  (a = .reset ∧ t.trace = []) ∨ t.trace = s.trace ∨
    ∃ answer e, a = .sequencer answer ∧ s.seq.busy = true ∧ s.fault.halted = false ∧ t.trace = s.trace ++ [e]

theorem SameChipAndTrace.cfg_and_traceGrowsBy {s t : State} (h : SameChipAndTrace s t) (a : Action) :
    t.cfg = s.cfg ∧ TraceGrowsBy a s t :=
  have ⟨hcfg, htrace⟩ := h
  ⟨hcfg, .inr (.inl htrace)⟩

/-- Every action keeps the chip, and none but RESET and a micro-step of the running op touches the trace. -/
theorem act_cfg_and_traceGrowsBy (a : Action) (s t : State) (h : act a s = .next t) :
    t.cfg = s.cfg ∧ TraceGrowsBy a s t := by
  have silent (hst : SameChipAndTrace s t) := hst.cfg_and_traceGrowsBy a
  cases a with
  | hostWrite addr bytes v => exact silent (hostWrite_sameChipAndTrace addr bytes v s t h)
  | hostRead addr bytes => exact silent (hostRead_sameChipAndTrace addr bytes s t h)
  | accept c => exact silent (acceptCommand_sameChipAndTrace c s t h)
  | sequencer answer =>
    cases h
    refine ⟨sequencerStep_cfg answer s, .inr ?_⟩
    exact (sequencerStep_trace answer s).imp_right fun ⟨e, hbusy, hrun, he⟩ => ⟨answer, e, rfl, hbusy, hrun, he⟩
  | wakeTrigger => cases h; exact silent ⟨wakeTrigger_cfg s, wakeTrigger_trace s⟩
  | lpTick => cases h; exact silent ⟨lpTick_cfg s, lpTick_trace s⟩
  | lpDone => cases h; exact silent ⟨lpDone_cfg s, lpDone_trace s⟩
  | hpTick => cases h; exact silent ⟨hpTick_cfg s, hpTick_trace s⟩
  | hpDone => cases h; exact silent ⟨hpDone_cfg s, hpDone_trace s⟩
  | setWakeLines v => cases h; exact silent ⟨rfl, rfl⟩
  | setRejectLines v => cases h; exact silent ⟨rfl, rfl⟩
  | addCycles n => cases h; exact silent ⟨rfl, rfl⟩
  | reset => cases h; exact ⟨rfl, .inl ⟨rfl, rfl⟩⟩

/-- A step is the action that comes next: taking the choice first leaves chip, trace, running op and fault record alone. -/
theorem step_cfg_and_traceGrowsBy (s t : State) (h : step s = .next t) :
    t.cfg = s.cfg ∧ TraceGrowsBy (nextAction s) s t := by
  have hact := act_cfg_and_traceGrowsBy (nextAction s) (choiceTaken s) t h
  obtain ⟨e, he⟩ := choiceTaken_eq s
  rwa [he] at hact

/-! ### The accesses of a trace -/

theorem accesses_of_trace_nil {t : State} (h : t.trace = []) : accesses t = [] := by simp [accesses, h]

theorem accesses_of_trace_eq {s t : State} (h : t.trace = s.trace) : accesses t = accesses s := by simp [accesses, h]

theorem accesses_of_trace_append {s t : State} {e : Event} (h : t.trace = s.trace ++ [e]) :
    accesses t = accesses s ++ [eventAccess e] := by
  simp [accesses, h]

/-- A poll reads the bus that has its input, with that bus's width (20_memory.md R47). -/
theorem eventAccess_r (i : StatusInput) (v : Word) :
    (∃ loc, Config.pollLocation i = .reg loc ∧ eventAccess (.r i v) = .read loc v ∧
        accessBytes (eventAccess (.r i v)) = 4) ∨
      ∃ loc, Config.pollLocation i = .ctl loc ∧ eventAccess (.r i v) = .busRead loc (v.setWidth 8) ∧
        accessBytes (eventAccess (.r i v)) = 1 := by
  simp only [eventAccess]
  cases Config.pollLocation i with
  | reg loc => exact .inl ⟨loc, rfl, rfl, rfl⟩
  | ctl loc => exact .inr ⟨loc, rfl, rfl, rfl⟩

/-- Every multiple of 4 is the address of a RegisterBus word (20_memory.md R41). -/
theorem exists_regAddress_eq (address : Word) (h : address.toNat % 4 = 0) : ∃ loc, regAddress loc = address := by
  refine ⟨{ word := address.extractLsb' 2 30, range := none }, BitVec.eq_of_toNat_eq ?_⟩
  rw [regAddress_toNat, BitVec.extractLsb'_toNat, Nat.shiftRight_eq_div_pow]
  omega

/-- Settles O60: `step_cfg_and_traceGrowsBy` says what a step does to the chip and to the trace, the accesses follow the
trace, and the widths, addresses and bit ranges are the laws of `eventAccess`, `regAddress`, `maskedWrite` and
`maskedRead`. -/
theorem chipIsFixedAndTraceGrows : Obligations.ChipIsFixedAndTraceGrows := by
  refine ⟨fun s t h => ?_, fun f v => ⟨eventAccess_w f v, accessBytes_w f v⟩,
    fun f v => ⟨eventAccess_b f v, accessBytes_b f v⟩, eventAccess_r,
    fun a b => ⟨regAddress_aligned a, regAddress_disjoint a b⟩, exists_regAddress_eq,
    fun w range old v => ⟨rfl, rfl, fun i hi => ⟨getLsbD_maskedWrite range old v i hi, getLsbD_maskedRead range old i⟩⟩⟩
  obtain ⟨hcfg, ⟨hreset, htrace⟩ | htrace | ⟨answer, e, hseq, hbusy, hrun, htrace⟩⟩ := step_cfg_and_traceGrowsBy s t h
  · exact ⟨hcfg, .inl ⟨hreset, htrace, accesses_of_trace_nil htrace⟩⟩
  · exact ⟨hcfg, .inr (.inl ⟨htrace, accesses_of_trace_eq htrace⟩)⟩
  · exact ⟨hcfg, .inr (.inr ⟨answer, e, hseq, hbusy, hrun, htrace, accesses_of_trace_append htrace⟩)⟩

end Sys2Proof.Machine
end

section
/-! The host window (10_state.md R35, R36; 20_memory.md R40 to R44): which register an address of the window reaches, what a
write to each register does, and the fields of the packed views. -/

namespace Sys2Proof.Machine

/-! ### Addresses -/

/-- The address `CSC_BASE + off` has the offset `off` (20_memory.md R40). -/
theorem windowOffset_base_add (cfg : Cfg) {off : Nat} (h : off < 0x1000) :
    windowOffset cfg (cfg.cscBase + BitVec.ofNat 32 off) = off := by
  have hadd : cfg.cscBase + BitVec.ofNat 32 off - cfg.cscBase = BitVec.ofNat 32 off := by
    rw [BitVec.add_comm, BitVec.add_sub_cancel]
  rw [windowOffset, hadd, BitVec.toNat_ofNat]
  omega

/-- A word access at an offset of the window reaches `writeReg` or is not admitted. -/
theorem act_hostWrite_offset (s : State) (v : Word) {off : Nat} (h : off < 0x1000) :
    act (.hostWrite (s.cfg.cscBase + BitVec.ofNat 32 off) 4 v) s =
      .next (if accessAdmitted (s.cfg.cscBase + BitVec.ofNat 32 off) 4 then writeReg off v s else s) := by
  simp only [act, hostWrite, windowOffset_base_add s.cfg h, if_pos h]

/-- The window of a well-formed chip starts at a multiple of its size (20_memory.md R40). -/
theorem cscBase_aligned {cfg : Cfg} (h : cfgOk cfg = true) : cfg.cscBase.toNat % 0x1000 = 0 := by
  simp only [cfgOk, Bool.and_eq_true, decide_eq_true_eq] at h
  obtain ⟨⟨-, hbase⟩, -⟩ := h
  simpa using congrArg BitVec.toNat hbase

/-- A word at a multiple of 4 is admitted (20_memory.md R42). -/
theorem accessAdmitted_offset {cfg : Cfg} (hcfg : cfgOk cfg = true) {off : Nat} (h4 : off % 4 = 0) :
    accessAdmitted (cfg.cscBase + BitVec.ofNat 32 off) 4 = true := by
  have hbase := cscBase_aligned hcfg
  simp only [accessAdmitted, BitVec.toNat_add, BitVec.toNat_ofNat, Bool.and_eq_true, decide_eq_true_eq]
  exact ⟨trivial, by omega⟩

/-- A host's word access to a register of a well-formed chip does what `writeReg` says. -/
theorem act_hostWrite_register {s : State} (hcfg : cfgOk s.cfg = true) (v : Word) {off : Nat} (h : off < 0x1000)
    (h4 : off % 4 = 0) :
    act (.hostWrite (s.cfg.cscBase + BitVec.ofNat 32 off) 4 v) s = .next (writeReg off v s) := by
  rw [act_hostWrite_offset s v h, if_pos (accessAdmitted_offset hcfg h4)]

/-! ### What a write to a mailbox register does -/

/-- A write in bounds is `Vector.set`. -/
theorem setIfInBounds_of_lt {α : Type} {n : Nat} (xs : Vector α n) {i : Nat} (h : i < n) (v : α) :
    xs.setIfInBounds i v = xs.set i v h := by
  simp [Vector.setIfInBounds, Vector.set, Array.setIfInBounds, h]

/-- `ARG[i]` of a mailbox (R36). -/
theorem mailboxWrite_arg (m : Mailbox) (i : Fin 5) (v : Word) :
    mailboxWrite m (0x04 + 4 * i.val) v = { m with arg := m.arg.set i.val v } := by
  have hr : 0x04 ≤ 0x04 + 4 * i.val ∧ 0x04 + 4 * i.val ≤ 0x14 := by omega
  have hi : (0x04 + 4 * i.val - 0x04) / 4 = i.val := by omega
  rw [mailboxWrite, if_neg (by omega), if_pos hr, hi, setIfInBounds_of_lt _ i.isLt]

/-- From `STATUS` on, a mailbox is read only (R36). -/
theorem mailboxWrite_readOnly (m : Mailbox) {r : Nat} (h : 0x18 ≤ r) (v : Word) : mailboxWrite m r v = m := by
  rw [mailboxWrite, if_neg (by omega), if_neg (by omega)]

/-- A host write never touches `RUNNING`, and it sets `PENDING` only in an idle mailbox, where it clears `DONE` (R36). -/
theorem mailboxWrite_flags (m : Mailbox) (r : Nat) (v : Word) :
    (mailboxWrite m r v).running = m.running ∧
      ((mailboxWrite m r v).pending = m.pending ∧ (mailboxWrite m r v).done = m.done ∨
        m.running = false ∧ (mailboxWrite m r v).pending = true ∧ (mailboxWrite m r v).done = false) := by
  unfold mailboxWrite issue
  split_ifs with hcmd hactive harg
  · exact ⟨rfl, .inl ⟨rfl, rfl⟩⟩
  · exact ⟨rfl, .inr ⟨by simp_all, rfl, rfl⟩⟩
  · exact ⟨rfl, .inl ⟨rfl, rfl⟩⟩
  · exact ⟨rfl, .inl ⟨rfl, rfl⟩⟩

/-- A mailbox replaced by itself. -/
@[simp] theorem setMbox_mboxAt (c : Core) (s : State) : setMbox c (mboxAt s c) s = s := by
  simp [setMbox, mboxAt]

/-! ### What a write to a register does -/

theorem writeReg_lpClk (v : Word) (s : State) :
    writeReg 0x01C v s = { s with slp := { s.slp with lpClkFreqHz := v } } := rfl

/-- The views below the mailboxes are read only, `LP_CLK_FREQ_HZ` excepted (R35). -/
theorem writeReg_view {off : Nat} (h : off < 0x100) (hlp : off ≠ 0x01C) (v : Word) (s : State) : writeReg off v s = s := by
  rw [writeReg, if_neg hlp, if_neg (by omega), if_neg (by omega), if_neg (by omega)]

/-- Nothing is behind the last `BKP` register (R36). -/
theorem writeReg_beyond {off : Nat} (h : 0x3AC ≤ off) (v : Word) (s : State) : writeReg off v s = s := by
  rw [writeReg, if_neg (by omega), if_neg (by omega), if_neg (by omega), if_neg (by omega)]

/-- A write at offset `r` of the mailbox of core `c` (R36). -/
theorem writeReg_mailbox (c : Core) {r : Nat} (hr : r < 0x40) (v : Word) (s : State) :
    writeReg (0x100 + 0x40 * c.val + r) v s =
      if c.val < s.cfg.nCores then setMbox c (mailboxWrite (mboxAt s c) r v) s else s := by
  have hc : (0x100 + 0x40 * c.val + r - 0x100) / 0x40 = c.val := by omega
  have hoff : (0x100 + 0x40 * c.val + r - 0x100) % 0x40 = r := by omega
  have hcore : mailboxCore (0x100 + 0x40 * c.val + r) = c := by simp [mailboxCore, hc]
  rw [writeReg, if_neg (by omega), if_pos (by omega), hcore, hoff]
  simp [mailboxExists, hc]

/-- A write at offset `r` of `PMT[k]`, closed while `busy` (R36). -/
theorem writeReg_mode (k : Fin 5) {r : Nat} (hr : r < 0x20) (v : Word) (s : State) :
    writeReg (0x300 + 0x20 * k.val + r) v s =
      if modeIndexOk s.cfg k.val = true ∧ s.seq.busy = false then
        { s with slp := { s.slp with pmt := s.slp.pmt.set k.val (setModeWordAt s.slp.pmt[k.val] (r / 4) v) } }
      else s := by
  have hk : (0x300 + 0x20 * k.val + r - 0x300) / 0x20 = k.val := by omega
  have hw : (0x300 + 0x20 * k.val + r - 0x300) % 0x20 / 4 = r / 4 := by omega
  rw [writeReg, if_neg (by omega), if_neg (by omega), if_pos (by omega)]
  simp [hk, hw, pmtExists, setSlp, setIfInBounds_of_lt _ k.isLt]

/-- A write of `BKP[e]`, closed while `busy` (R36). -/
theorem writeReg_backup (e : Fin 3) (v : Word) (s : State) :
    writeReg (0x3A0 + 4 * e.val) v s =
      if bkpExists s.cfg e.val = true ∧ s.seq.busy = false then
        { s with slp := { s.slp with bkp := s.slp.bkp.set e.val v } }
      else s := by
  rw [writeReg, if_neg (by omega), if_neg (by omega), if_neg (by omega), if_pos (by omega)]
  simp [setSlp, setIfInBounds_of_lt _ e.isLt]

@[simp] theorem writeReg_clk (off : Nat) (v : Word) (s : State) : (writeReg off v s).clk = s.clk := by
  obtain ⟨mb, z, hw, -⟩ := writeReg_frame off v s
  rw [hw]

@[simp] theorem writeReg_seq (off : Nat) (v : Word) (s : State) : (writeReg off v s).seq = s.seq := by
  obtain ⟨mb, z, hw, -⟩ := writeReg_frame off v s
  rw [hw]

@[simp] theorem writeReg_fault (off : Nat) (v : Word) (s : State) : (writeReg off v s).fault = s.fault := by
  obtain ⟨mb, z, hw, -⟩ := writeReg_frame off v s
  rw [hw]

/-- The five words of a mode entry, in the order of their registers (R36). -/
theorem setModeWordAt_of_getElem? {w : Fin 5} {q p : ModeParams} {v : Word}
    (h : [{ q with pwr := v }, { q with ckg := v }, { q with ana := v }, { q with pad := v }, { q with ret := v }][w.val]? =
      some p) : setModeWordAt q w.val v = p := by
  fin_cases w <;> simpa [setModeWordAt] using h

/-- A mode entry has five words (R36). -/
theorem setModeWordAt_beyond (q : ModeParams) {w : Nat} (h : 5 ≤ w) (v : Word) : setModeWordAt q w v = q := by
  obtain ⟨n, rfl⟩ := Nat.exists_eq_add_of_le' h
  rfl

/-- Settles O50: a host's access reaches its register (`act_hostWrite_register`), and each register's equation of `writeReg`
says what it does and what it leaves. -/
theorem hostWritesReachTheirRegisters : Obligations.HostWritesReachTheirRegisters := by
  intro s v addr hcfg haddr
  have hwrite {off : Nat} (h : off < 0x1000) (h4 : off % 4 = 0) :
      act (.hostWrite (addr off) 4 v) s = .next (writeReg off v s) := by
    rw [haddr]; exact act_hostWrite_register hcfg v h h4
  refine ⟨?_, fun c hc => ⟨?_, fun i => ?_⟩, fun k w p q hk hq hp => ?_, fun e he => ?_⟩
  · rw [hwrite (by omega) (by omega), writeReg_lpClk]
  · refine ⟨setMbox c (issue (mboxAt s c) v) s, ?_, rfl, fun d hd => mboxAt_setMbox_ne hd _ s, ?_⟩
    · have hreg := writeReg_mailbox c (r := 0) (by omega) v s
      rw [if_pos hc] at hreg
      rw [hwrite (by omega) (by omega)]
      exact congrArg _ hreg
    · simp [issue]
  · refine ⟨setMbox c { mboxAt s c with arg := (mboxAt s c).arg.set i.val v } s, ?_, rfl,
      fun d hd => mboxAt_setMbox_ne hd _ s, mboxAt_setMbox_self c _ s⟩
    have hoff : 0x104 + 0x40 * c.val + 4 * i.val = 0x100 + 0x40 * c.val + (0x04 + 4 * i.val) := by omega
    rw [hwrite (by omega) (by omega), hoff, writeReg_mailbox c (by omega), if_pos hc, mailboxWrite_arg]
  · have hmode : modeIndexOk s.cfg k.val = true := by
      simp only [modeIndexOk, Bool.and_eq_true, Bool.or_eq_true, decide_eq_true_eq]
      exact ⟨by omega, Decidable.or_iff_not_imp_left.2 fun h1 => hk (not_not.1 h1)⟩
    have hw : 4 * w.val / 4 = w.val := by omega
    subst hq
    rw [hwrite (by omega) (by omega), writeReg_mode k (by omega), hw, setModeWordAt_of_getElem? hp]
    cases s.seq.busy <;> simp [hmode]
  · have hbkp : bkpExists s.cfg e.val = true := by
      simp only [bkpExists, Bool.and_eq_true, Bool.or_eq_true, decide_eq_true_eq]
      exact ⟨by omega, Decidable.or_iff_not_imp_left.2 fun h2 => he (not_not.1 h2)⟩
    rw [hwrite (by omega) (by omega), writeReg_backup]
    cases s.seq.busy <;> simp [hbkp]

/-- Settles O51: each class of ignored offsets by the equation of `writeReg` that covers it; the host's access then changes
nothing whether it is admitted or not. -/
theorem otherHostWritesAreIgnored : Obligations.OtherHostWritesAreIgnored := by
  intro s off v hoff hother
  have hsame : writeReg off v s = s := by
    obtain ⟨hview, hlp⟩ | hbeyond | ⟨c, r, rfl, hc, hr, hclosed⟩ | ⟨k, r, rfl, hk, hr, hclosed⟩ | ⟨rfl, hmodem⟩ := hother
    · exact writeReg_view hview hlp v s
    · exact writeReg_beyond hbeyond v s
    · rw [writeReg_mailbox ⟨c, hc⟩ hr]
      obtain hcore | hread := hclosed
      · exact if_neg (Nat.not_lt.2 hcore)
      · rw [mailboxWrite_readOnly _ hread, setMbox_mboxAt, ite_self]
    · rw [writeReg_mode ⟨k, hk⟩ hr]
      obtain hword | ⟨rfl, hmodem⟩ := hclosed
      · simp [setModeWordAt_beyond _ (show 5 ≤ r / 4 by omega)]
      · simp [modeIndexOk, hmodem]
    · exact (writeReg_backup 2 v s).trans (by simp [bkpExists, hmodem])
  refine ⟨hsame, fun addr haddr => ?_⟩
  rw [haddr, act_hostWrite_offset s v hoff, hsame, ite_self]

end Sys2Proof.Machine
end

section
/-! The packed views (10_state.md R10, R35): each status word is an OR of flags, bytes and codes placed at their bits, so each of
its fields is read off bit by bit. -/

namespace Sys2Proof.Machine

/-! ### The bits a status word is made of -/

theorem getLsbD_bitAt (b : Bool) (n i : Nat) : (bitAt b n).getLsbD i = (decide (i < 32 ∧ i = n) && b) := by
  cases b
  · simp [bitAt, bit]
  · simp only [bitAt, bit, if_true, BitVec.getLsbD_shiftLeft, BitVec.ofNat_eq_ofNat, BitVec.getLsbD_one]
    grind

theorem getLsbD_byteAt (b : Byte) (n i : Nat) :
    (byteAt b n).getLsbD i = (decide (i < 32 ∧ n ≤ i) && b.getLsbD (i - n)) := by
  simp only [byteAt, BitVec.getLsbD_shiftLeft, BitVec.getLsbD_setWidth]
  grind

/-- A code of `n` bits has no bit above them. -/
theorem getLsbD_of_toNat_lt {b : Byte} {n : Nat} (h : b.toNat < 2 ^ n) (i : Nat) (hi : n ≤ i) : b.getLsbD i = false :=
  Nat.testBit_lt_two_pow (h.trans_le (Nat.pow_le_pow_right (by omega) hi))

/-- A field of a word is given by its bits. -/
theorem extractLsb'_eq_of_bits {w : Word} {start len : Nat} {v : BitVec len}
    (h : ∀ i < len, w.getLsbD (start + i) = v.getLsbD i) : w.extractLsb' start len = v :=
  BitVec.eq_of_getLsbD_eq fun i hi => by simpa [hi] using h i hi

/-! ### The fields of each word -/

theorem clkStateWord_fields (k : ClkState) :
    (clkStateWord k).extractLsb' 0 2 = (match k with | .onCrystal => 0 | .onPll _ => 1 | .onFastRc => 2) ∧
      (clkStateWord k).extractLsb' 2 6 = 0 ∧
      (clkStateWord k).extractLsb' 8 8 = (match k with | .onPll id => id | _ => 0) ∧
      (clkStateWord k).extractLsb' 16 16 = 0 := by
  cases k with
  | onCrystal => decide
  | onPll id => revert id; decide
  | onFastRc => decide

theorem slpStateWord_fields (z : SleepSeq) :
    (slpStateWord z).extractLsb' 0 3 = (slpStateCode z.state).setWidth 3 ∧
      (slpStateWord z).getLsbD 3 = false ∧ (slpStateWord z).getLsbD 4 = z.programmed ∧
      (slpStateWord z).getLsbD 5 = z.regdmaEnabled ∧ (slpStateWord z).getLsbD 6 = z.asleep ∧
      (slpStateWord z).getLsbD 7 = z.wakeType ∧
      (slpStateWord z).extractLsb' 8 2 = (wtPhaseCode z.wtPhase).setWidth 2 ∧
      (slpStateWord z).extractLsb' 10 22 = 0 := by
  have hstate := getLsbD_of_toNat_lt (show (slpStateCode z.state).toNat < 2 ^ 3 by cases z.state <;> decide)
  have hphase := getLsbD_of_toNat_lt (show (wtPhaseCode z.wtPhase).toNat < 2 ^ 2 by cases z.wtPhase <;> decide)
  refine ⟨extractLsb'_eq_of_bits ?_, ?_, ?_, ?_, ?_, ?_, extractLsb'_eq_of_bits ?_, extractLsb'_eq_of_bits ?_⟩
  all_goals simp only [slpStateWord, BitVec.getLsbD_or, getLsbD_bitAt, getLsbD_byteAt, BitVec.getLsbD_setWidth,
    BitVec.ofNat_eq_ofNat, BitVec.getLsbD_zero]
  all_goals grind

theorem intStatusWord_fields (z : SleepSeq) :
    (intStatusWord z).getLsbD 0 = z.wakeupOccurred ∧ (intStatusWord z).getLsbD 1 = z.sleepRejected ∧
      (intStatusWord z).extractLsb' 2 30 = 0 := by
  refine ⟨?_, ?_, extractLsb'_eq_of_bits ?_⟩
  all_goals simp only [intStatusWord, BitVec.getLsbD_or, getLsbD_bitAt, BitVec.ofNat_eq_ofNat, BitVec.getLsbD_zero]
  all_goals grind

theorem faultWord_fields (f : FaultReg) :
    (faultWord f).getLsbD 0 = f.halted ∧ (faultWord f).extractLsb' 1 7 = 0 ∧
      (faultWord f).extractLsb' 8 8 = f.code ∧ (faultWord f).extractLsb' 16 16 = f.info := by
  refine ⟨?_, extractLsb'_eq_of_bits ?_, extractLsb'_eq_of_bits ?_, extractLsb'_eq_of_bits ?_⟩
  all_goals simp only [faultWord, BitVec.getLsbD_or, getLsbD_bitAt, getLsbD_byteAt, BitVec.getLsbD_shiftLeft,
    BitVec.getLsbD_setWidth, BitVec.ofNat_eq_ofNat, BitVec.getLsbD_zero]
  all_goals grind

theorem busyWord_fields (q : Sequencer) :
    (busyWord q).getLsbD 0 = q.busy ∧ (busyWord q).extractLsb' 1 7 = 0 ∧
      (busyWord q).extractLsb' 8 8 = (if q.busy = true then BitVec.ofNat 8 q.owner.val else 0) ∧
      (busyWord q).extractLsb' 16 16 = 0 := by
  cases hbusy : q.busy
  · simp [busyWord, hbusy, bitAt, bit]
  · simp only [busyWord, hbusy, if_true]
    refine ⟨?_, extractLsb'_eq_of_bits ?_, extractLsb'_eq_of_bits ?_, extractLsb'_eq_of_bits ?_⟩
    all_goals simp only [BitVec.getLsbD_or, getLsbD_bitAt, getLsbD_byteAt, BitVec.ofNat_eq_ofNat, BitVec.getLsbD_zero]
    all_goals grind

theorem pllStateWord_fields (p : Pll) :
    (pllStateWord p).getLsbD 0 = p.enabled ∧ (pllStateWord p).extractLsb' 1 2 = (calStateCode p.calState).setWidth 2 ∧
      (pllStateWord p).extractLsb' 3 29 = 0 := by
  have hcal := getLsbD_of_toNat_lt (show (calStateCode p.calState).toNat < 2 ^ 2 by cases p.calState <;> decide)
  refine ⟨?_, extractLsb'_eq_of_bits ?_, extractLsb'_eq_of_bits ?_⟩
  all_goals simp only [pllStateWord, BitVec.getLsbD_or, getLsbD_bitAt, getLsbD_byteAt, BitVec.getLsbD_setWidth,
    BitVec.ofNat_eq_ofNat, BitVec.getLsbD_zero]
  all_goals grind

theorem statusWord_fields (m : Mailbox) :
    (statusWord m).getLsbD 0 = m.pending ∧ (statusWord m).getLsbD 1 = m.running ∧ (statusWord m).getLsbD 2 = m.done ∧
      (statusWord m).extractLsb' 3 5 = 0 ∧ (statusWord m).extractLsb' 8 8 = m.code ∧
      (statusWord m).extractLsb' 16 16 = 0 := by
  refine ⟨?_, ?_, ?_, extractLsb'_eq_of_bits ?_, extractLsb'_eq_of_bits ?_, extractLsb'_eq_of_bits ?_⟩
  all_goals simp only [statusWord, BitVec.getLsbD_or, getLsbD_bitAt, getLsbD_byteAt, BitVec.ofNat_eq_ofNat,
    BitVec.getLsbD_zero]
  all_goals grind

/-! ### Where the indexed views stand -/

/-- `PLL_STATE[id]` (R35). -/
theorem readReg_pllState {id : PllId} (h : id.toNat < 8) (s : State) :
    readReg s (0x080 + 0x10 * id.toNat) = if id.toNat < s.cfg.nPll then pllStateWord (pllAt s id) else 0 := by
  have hid : (0x080 + 0x10 * id.toNat - 0x080) / 0x10 = id.toNat := by omega
  have hr : (0x080 + 0x10 * id.toNat - 0x080) % 0x10 = 0 := by omega
  rw [readReg, if_neg (by omega), if_neg (by omega), if_neg (by omega), if_neg (by omega), if_neg (by omega),
    if_pos (by omega), hid, hr]
  simp [pllView]

/-- `STATUS[c]` (R36). -/
theorem readReg_status {c : Core} {s : State} (h : c.val < s.cfg.nCores) :
    readReg s (0x118 + 0x40 * c.val) = statusWord (mboxAt s c) := by
  have hc : (0x118 + 0x40 * c.val - 0x100) / 0x40 = c.val := by omega
  have hr : (0x118 + 0x40 * c.val - 0x100) % 0x40 = 0x18 := by omega
  have hcore : mailboxCore (0x118 + 0x40 * c.val) = c := by simp [mailboxCore, hc]
  rw [readReg, if_neg (by omega), if_neg (by omega), if_neg (by omega), if_neg (by omega), if_neg (by omega),
    if_neg (by omega), if_pos (by omega), if_pos (by simpa [mailboxExists, hc] using h), hcore, hr]
  rfl

/-- Settles O52: each view is its status word, and the `…Word_fields` lemmas give the word's fields. -/
theorem packedViewsReadTheirFields : Obligations.PackedViewsReadTheirFields := by
  intro s
  refine ⟨clkStateWord_fields s.clk.state, packFraction_bits s.clk.cur.divider, ?_, intStatusWord_fields s.slp,
    faultWord_fields s.fault, busyWord_fields s.seq, fun id w hid hw => ?_, fun c w hc hw => ?_⟩
  · obtain ⟨hstate, h3, h4, h5, h6, h7, hphase, hrest⟩ := slpStateWord_fields s.slp
    exact ⟨hstate.trans (by cases s.slp.state <;> rfl), h3, h4, h5, h6, h7,
      hphase.trans (by cases s.slp.wtPhase <;> rfl), hrest⟩
  · rw [readReg_pllState hid] at hw
    refine ⟨fun hn => ?_, fun hn => hw.trans (if_neg (by omega))⟩
    rw [if_pos hn] at hw
    obtain ⟨henabled, hcal, hrest⟩ := pllStateWord_fields (pllAt s id)
    subst hw
    exact ⟨henabled, hcal.trans (by cases (pllAt s id).calState <;> rfl), hrest⟩
  · rw [hw, readReg_status hc]
    exact statusWord_fields (mboxAt s c)

end Sys2Proof.Machine
end

section
/-! `clk_state` under every step (10_state.md R11): the last micro-step of `apply` and RESET are all that change it, and both
write `cur` with it. -/

namespace Sys2Proof.Machine

theorem StartOf.prep_clk {s : State} {i : Instr} {prep : State → State} {script : List Micro}
    (h : StartOf s i prep script) : (prep s).clk = s.clk := by
  cases h with
  | clock => exact discardParams_clk s
  | sleep => exact discardParams_clk s
  | _ => rfl

/-- An acceptance leaves ClockTree alone. -/
theorem exec_clk {i : Instr} {s t : State} (h : exec i s = .next t) : t.clk = s.clk := by
  obtain ⟨k, rfl⟩ | rfl | ⟨-, -, prep, script, hstart, rfl⟩ | ⟨-, -, himm⟩ := exec_cases i s t h
  · rfl
  · rfl
  · rw [start_clk, hstart.prep_clk]
  · obtain ⟨f, k, -, rfl⟩ | ⟨-, rfl⟩ | ⟨id, -, -, rfl⟩ | ⟨id, -, -, rfl⟩ | ⟨id, -, -, rfl⟩ | ⟨k, p, -, rfl⟩ := himm
    all_goals simp

theorem ClockStateInv.of_clk_eq {s t : State} (hs : ClockStateInv s) (h : t.clk = s.clk) : ClockStateInv t := by
  unfold ClockStateInv
  rw [h]
  exact hs

theorem clockStateInv_resetOf (cfg : Cfg) : ClockStateInv (State.resetOf cfg) := rfl

theorem ClockStateInv.runMicro {s : State} (hs : ClockStateInv s) (m : Micro) (rest : List Micro) (a : Bool) :
    ClockStateInv (runMicro m rest a s) := by
  have hclk := runMicro_clk m rest a s
  cases m with
  | applyWrite t f => unfold ClockStateInv; rw [hclk]; exact hs
  | applyEnd t => unfold ClockStateInv; rw [hclk]; rfl
  | stepFive x y => unfold ClockStateInv; rw [hclk]; exact hs
  | calPoll id o =>
    obtain hsame | ⟨f, hstep⟩ := doCalPoll_clk id o rest a s
    · exact hs.of_clk_eq hsame
    · have hclk' : (Machine.runMicro (.calPoll id o) rest a s).clk = (doStepFive f s.clk.cur.freqMhz s).clk := hclk.trans hstep
      unfold ClockStateInv; rw [hclk']; exact hs
  | _ => exact hs.of_clk_eq hclk

theorem ClockStateInv.sequencerStep {s : State} (hs : ClockStateInv s) (a : Bool) : ClockStateInv (sequencerStep a s) := by
  obtain hsame | ⟨m, rest, -, -, -, hrun⟩ := sequencerStep_cases a s
  · rwa [hsame]
  · rw [hrun]; exact hs.runMicro m rest a

/-- Settles O55: of all kinds of actions only micro-steps and RESET do anything to `cur` or `clk_state`. -/
theorem stepKeepsClockStateInv : Obligations.StepKeepsClockStateInv := by
  intro s t hs h
  exact step_keeps ClockStateInv
    (henv := fun s e hs => hs)
    (hreset := fun s _ => clockStateInv_resetOf s.cfg)
    (hcyc := fun s n hs => hs)
    (hwrite := fun s off v hs => hs.of_clk_eq (writeReg_clk off v s))
    (hend := fun s c k hs _ => hs)
    (hexec := fun s i t hs _ hexec => hs.of_clk_eq (exec_clk hexec))
    (hseq := fun s a hs => hs.sequencerStep a)
    (hwt := fun s hs => hs.of_clk_eq (wakeTrigger_clk s))
    (hlt := fun s hs => hs.of_clk_eq (lpTick_clk s))
    (hld := fun s hs => hs.of_clk_eq (lpDone_clk s))
    (hht := fun s hs => hs.of_clk_eq (hpTick_clk s))
    (hhd := fun s hs => hs.of_clk_eq (hpDone_clk s))
    s t hs h

end Sys2Proof.Machine
end

section
/-! The mailboxes and the running op under every step (10_state.md R10, R12; 20_memory.md R52; 60_exceptions.md R156): what an
action does to the mailbox invariant is to end an op of a core that is not running, to start one while nothing runs, to end
the running one, or to issue a command in an idle mailbox. -/

namespace Sys2Proof.Machine

/-! ### What a host write and an immediate body do to the mailboxes -/

/-- A host write leaves a mailbox alone or is a write to one of its registers. -/
theorem mboxAt_writeReg (off : Nat) (v : Word) (s : State) (d : Core) :
    mboxAt (writeReg off v s) d = mboxAt s d ∨
      ∃ r, mboxAt (writeReg off v s) d = mailboxWrite (mboxAt s d) r v := by
  unfold writeReg
  dsimp only
  split_ifs
  · exact .inl rfl
  · by_cases hd : d = mailboxCore off
    · subst hd; exact .inr ⟨_, mboxAt_setMbox_self _ _ s⟩
    · exact .inl (mboxAt_setMbox_ne hd _ s)
  all_goals exact .inl rfl

theorem setResConfig_otherMailboxes (c : Core) (k : ClockConfig) (s : State) :
    OtherMailboxesSame c s (setResConfig c k s) := fun d hd => by
  simp [setResConfig, mboxAt_setRes, hd]

theorem setResMode_otherMailboxes (c : Core) (p : ModeParams) (s : State) :
    OtherMailboxesSame c s (setResMode c p s) := fun d hd => by
  simp [setResMode, mboxAt_setRes, hd]

/-- The end of an op of core `c` touches no other mailbox. -/
theorem endOp_otherMailboxes {c : Core} {s u : State} (h : OtherMailboxesSame c s u) (k : StatusCode) :
    OtherMailboxesSame c s (endOp c k u) := fun d hd => (mboxAt_endOp_ne hd k u).trans (h d hd)

/-! ### What keeps the invariant -/

/-- The mailbox is neither pending nor running. -/
def Mailbox.AtRest (m : Mailbox) : Prop := m.pending = false ∧ m.running = false

theorem endOp_atRest (c : Core) (k : StatusCode) (s : State) : (mboxAt (endOp c k s) c).AtRest := by
  simp [Mailbox.AtRest]

theorem MailboxInv.of_same {s t : State} (h : MailboxInv s) (hmbox : ∀ d, mboxAt t d = mboxAt s d) (hseq : t.seq = s.seq)
    (hfault : t.fault = s.fault) : MailboxInv t where
  halted := by rw [hseq, hfault]; exact h.halted
  idle := by rw [hseq]; exact h.idle
  runs d := by rw [hmbox, hseq]; exact h.runs d
  pendingNotRunning d := by rw [hmbox]; exact h.pendingNotRunning d
  doneNotActive d := by rw [hmbox]; exact h.doneNotActive d

/-- The mailbox of a core whose op does not run comes to rest; HALT may come with it where nothing runs. -/
theorem MailboxInv.of_core_ended {s t : State} {c : Core} (h : MailboxInv s) (hc : (mboxAt s c).running = false)
    (hothers : OtherMailboxesSame c s t) (hrest : (mboxAt t c).AtRest) (hseq : t.seq = s.seq)
    (hhalt : t.fault.halted = true → s.seq.busy = false) : MailboxInv t where
  halted := by rw [hseq]; exact hhalt
  idle := by rw [hseq]; exact h.idle
  runs d := by
    rw [hseq, ← h.runs d]
    by_cases hd : d = c
    · subst hd; rw [hrest.2, hc]
    · rw [hothers d hd]
  pendingNotRunning d hp := by
    by_cases hd : d = c
    · subst hd; exact hrest.2
    · rw [hothers d hd] at hp ⊢; exact h.pendingNotRunning d hp
  doneNotActive d hdone := by
    by_cases hd : d = c
    · subst hd; exact hrest
    · rw [hothers d hd] at hdone ⊢; exact h.doneNotActive d hdone

/-- The running op is over: its owner's mailbox comes to rest and nothing runs any more, in HALT or not. -/
theorem MailboxInv.of_owner_ended {s t : State} (h : MailboxInv s) (hothers : OtherMailboxesSame s.seq.owner s t)
    (hrest : (mboxAt t s.seq.owner).AtRest) (hbusy : t.seq.busy = false) (hscript : t.seq.script = []) : MailboxInv t where
  halted _ := hbusy
  idle _ := hscript
  runs d := by
    by_cases hd : d = s.seq.owner
    · subst hd; simp [hrest.2, hbusy]
    · have hnot := h.runs d
      simp [hothers d hd, hnot, hbusy, Ne.symm hd]
  pendingNotRunning d hp := by
    by_cases hd : d = s.seq.owner
    · subst hd; exact hrest.2
    · rw [hothers d hd] at hp ⊢; exact h.pendingNotRunning d hp
  doneNotActive d hdone := by
    by_cases hd : d = s.seq.owner
    · subst hd; exact hrest
    · rw [hothers d hd] at hdone ⊢; exact h.doneNotActive d hdone

/-- The end of a micro-step of the running op. -/
theorem MailboxInv.advance {s : State} (h : MailboxInv s) (hbusy : s.seq.busy = true) (l : List Micro) :
    MailboxInv (advance l s) := by
  obtain ⟨l', hmbox, hseq⟩ | ⟨hidle, hscript, -, hothers, hpending, hrunning⟩ := advance_shape l s
  · have hm (d : Core) : mboxAt (Machine.advance l s) d = mboxAt s d := by simp [mboxAt, hmbox]
    exact {
      halted := fun hh => by rw [advance_fault] at hh; rw [hseq]; exact h.halted hh
      idle := fun hi => by rw [hseq] at hi; exact absurd (hbusy.symm.trans hi) Bool.noConfusion
      runs := fun d => by rw [hm, hseq]; exact h.runs d
      pendingNotRunning := fun d => by rw [hm]; exact h.pendingNotRunning d
      doneNotActive := fun d => by rw [hm]; exact h.doneNotActive d }
  · exact h.of_owner_ended hothers ⟨hpending, hrunning⟩ hidle hscript

/-- A fatal fault of the running op (60_exceptions.md R156). -/
theorem MailboxInv.raiseFatal_owner {s : State} (h : MailboxInv s) (k : StatusCode) (info : BitVec 16) :
    MailboxInv (raiseFatal s.seq.owner true k info s) := by
  have hraise : raiseFatal s.seq.owner true k info s = release (endOp s.seq.owner k (recordFault k info s)) := by
    simp [raiseFatal, abandonOther]
  rw [hraise]
  refine h.of_owner_ended (fun d hd => ?_) (endOp_atRest _ k _) rfl rfl
  rw [release_mboxAt, mboxAt_endOp_ne hd, recordFault_mboxAt]

/-- A fatal fault of an immediate op of core `c`, which abandons the running op of another core (R156). -/
theorem MailboxInv.raiseFatal_immediate {s : State} {c : Core} (h : MailboxInv s) (hc : (mboxAt s c).running = false)
    (k : StatusCode) (info : BitVec 16) : MailboxInv (raiseFatal c false k info s) := by
  have hothers : OtherMailboxesSame c s (endOp c k (recordFault k info s)) :=
    endOp_otherMailboxes (fun d _ => recordFault_mboxAt k info s d) k
  cases hbusy : s.seq.busy with
  | false =>
    have hraise : raiseFatal c false k info s = endOp c k (recordFault k info s) := by
      simp [raiseFatal, abandonOther, hbusy]
    rw [hraise]
    exact h.of_core_ended hc hothers (endOp_atRest c k _) (by simp) fun _ => hbusy
  | true =>
    have howner : s.seq.owner ≠ c := fun he => Bool.noConfusion (hc.symm.trans ((h.runs c).2 ⟨hbusy, he⟩))
    have hraise : raiseFatal c false k info s = release (endOp s.seq.owner .halted (endOp c k (recordFault k info s))) := by
      simp [raiseFatal, abandonOther, hbusy, howner]
    have hended : MailboxInv (endOp c k s) :=
      h.of_core_ended hc (endOp_otherMailboxes (fun _ _ => rfl) k) (endOp_atRest c k s) rfl h.halted
    rw [hraise]
    refine hended.of_owner_ended (fun d hd => ?_) (endOp_atRest _ .halted _) rfl rfl
    rw [release_mboxAt, mboxAt_endOp_ne (c := s.seq.owner) hd]
    simp [mboxAt_endOp]

/-- A sequenced op starts running while nothing runs (30_encoding.md R72). -/
theorem MailboxInv.start {s : State} (h : MailboxInv s) (hready : Ready s)
    (hpending : (mboxAt s s.env.picked).pending = true) (script : List Micro) : MailboxInv (start script s) := by
  obtain ⟨hrun, hidle⟩ := hready
  have hnone (d : Core) : (mboxAt s d).running = false := by
    have := h.runs d
    simpa [hidle] using this
  have hdone : (mboxAt s s.env.picked).done = false := by
    by_contra hd
    have := (h.doneNotActive s.env.picked (by simpa using hd)).1
    simp [hpending] at this
  refine MailboxInv.advance ?_ rfl script
  refine ⟨fun hh => absurd (hrun.symm.trans hh) Bool.noConfusion, fun hi => by simp at hi, fun d => ?_, fun d => ?_, fun d => ?_⟩
  all_goals
    rw [setSeq_mboxAt, mboxAt_setMbox]
    by_cases hd : d = s.env.picked
  · simp [hd]
  · simp [hd, hnone, Ne.symm hd]
  · simp [hd]
  · simp [hd, hnone]
  · simp [hd, hdone]
  · simp only [hd, if_false]; exact h.doneNotActive d

theorem mailboxInv_resetOf (cfg : Cfg) : MailboxInv (State.resetOf cfg) := by
  refine ⟨fun _ => rfl, fun _ => rfl, fun c => ?_, fun c => ?_, fun c => ?_⟩
  · simp [Mailbox.reset, show (State.resetOf cfg).seq.busy = false from rfl]
  · simp [Mailbox.reset]
  · simp [Mailbox.reset]

/-! ### Every kind of action -/

theorem StartOf.prep_mailboxes {s : State} {i : Instr} {prep : State → State} {script : List Micro}
    (h : StartOf s i prep script) :
    (∀ d, mboxAt (prep s) d = mboxAt s d) ∧ (prep s).seq = s.seq ∧ (prep s).fault = s.fault ∧ (prep s).env = s.env := by
  cases h with
  | clock => simp
  | sleep => simp [saveConfig]
  | _ => exact ⟨fun _ => rfl, rfl, rfl, rfl⟩

theorem MailboxInv.exec {s t : State} {i : Instr} (h : MailboxInv s) (hpending : (mboxAt s s.env.picked).pending = true)
    (hexec : exec i s = .next t) : MailboxInv t := by
  have hc := h.pendingNotRunning _ hpending
  have ended {u : State} (k : StatusCode) (hothers : OtherMailboxesSame s.env.picked s u) (hseq : u.seq = s.seq)
      (hfault : u.fault = s.fault) : MailboxInv (endOp s.env.picked k u) :=
    h.of_core_ended hc (endOp_otherMailboxes hothers k) (endOp_atRest _ k u) hseq
      fun hh => h.halted (hfault ▸ hh)
  obtain ⟨k, rfl⟩ | rfl | ⟨-, hready, prep, script, hstart, rfl⟩ | ⟨-, -, himm⟩ := exec_cases i s t hexec
  · exact ended k (fun _ _ => rfl) rfl rfl
  · exact h
  · obtain ⟨hmbox, hseq, hfault, henv⟩ := hstart.prep_mailboxes
    refine (h.of_same hmbox hseq hfault).start ?_ ?_ script
    · unfold Ready; rw [hfault, hseq]; exact hready
    · rw [henv, hmbox]; exact hpending
  · obtain ⟨f, k, -, rfl⟩ | ⟨-, rfl⟩ | ⟨id, -, -, rfl⟩ | ⟨id, -, -, rfl⟩ | ⟨id, -, -, rfl⟩ | ⟨k, p, -, rfl⟩ := himm
    · exact ended .ok (setResConfig_otherMailboxes _ k s) rfl rfl
    · exact ended .ok (setResConfig_otherMailboxes _ _ s) rfl rfl
    · exact ended .ok (fun _ _ => rfl) rfl rfl
    · exact ended .ok (fun _ _ => rfl) rfl rfl
    · exact h.raiseFatal_immediate hc _ _
    · exact ended .ok (setResMode_otherMailboxes _ p s) rfl rfl

theorem MailboxInv.sequencerStep {s : State} (h : MailboxInv s) (a : Bool) : MailboxInv (sequencerStep a s) := by
  obtain hsame | ⟨m, rest, hbusy, -, -, hrun⟩ := sequencerStep_cases a s
  · rwa [hsame]
  rw [hrun]
  obtain hsame | ⟨u, hmbox, hub, howner, hfault, hgoes⟩ := runMicro_shape m rest a s
  · rwa [hsame]
  have hm (d : Core) : mboxAt u d = mboxAt s d := by simp [mboxAt, hmbox]
  have hu : MailboxInv u := {
    halted := by rw [hfault, hub]; exact h.halted
    idle := fun hi => absurd (hbusy.symm.trans (hub.symm.trans hi)) Bool.noConfusion
    runs := fun d => by rw [hm, hub, howner]; exact h.runs d
    pendingNotRunning := fun d => by rw [hm]; exact h.pendingNotRunning d
    doneNotActive := fun d => by rw [hm]; exact h.doneNotActive d }
  obtain ⟨l, hadv⟩ | ⟨k, info, hraise⟩ := hgoes
  · rw [hadv]; exact hu.advance (hub.trans hbusy) l
  · rw [hraise, ← howner]; exact hu.raiseFatal_owner k info

theorem MailboxInv.writeReg {s : State} (h : MailboxInv s) (off : Nat) (v : Word) : MailboxInv (writeReg off v s) := by
  have hflags (d : Core) :
      (mboxAt (Machine.writeReg off v s) d).running = (mboxAt s d).running ∧
        ((mboxAt (Machine.writeReg off v s) d).pending = (mboxAt s d).pending ∧
            (mboxAt (Machine.writeReg off v s) d).done = (mboxAt s d).done ∨
          (mboxAt s d).running = false ∧ (mboxAt (Machine.writeReg off v s) d).pending = true ∧
            (mboxAt (Machine.writeReg off v s) d).done = false) := by
    obtain hsame | ⟨r, hwrite⟩ := mboxAt_writeReg off v s d
    · rw [hsame]; exact ⟨rfl, .inl ⟨rfl, rfl⟩⟩
    · rw [hwrite]; exact mailboxWrite_flags (mboxAt s d) r v
  refine ⟨?_, ?_, fun d => ?_, fun d hp => ?_, fun d hdone => ?_⟩
  · rw [writeReg_fault, writeReg_seq]; exact h.halted
  · rw [writeReg_seq]; exact h.idle
  · rw [writeReg_seq, (hflags d).1]; exact h.runs d
  · obtain ⟨hrunning, ⟨hpending, -⟩ | ⟨hidle, -, -⟩⟩ := hflags d
    · rw [hrunning]; exact h.pendingNotRunning d (hpending ▸ hp)
    · rw [hrunning]; exact hidle
  · obtain ⟨hrunning, ⟨hpending, hsame⟩ | ⟨-, -, hclear⟩⟩ := hflags d
    · rw [hrunning, hpending]; exact h.doneNotActive d (hsame ▸ hdone)
    · exact absurd (hclear.symm.trans hdone) Bool.noConfusion

/-- Settles O56: acceptances, micro-steps and host writes are the only actions that reach the mailboxes. -/
theorem stepKeepsMailboxInv : Obligations.StepKeepsMailboxInv := by
  intro s t hs h
  exact step_keeps MailboxInv
    (henv := fun s e h => h.of_same (fun _ => rfl) rfl rfl)
    (hreset := fun s _ => (mailboxInv_resetOf s.cfg).of_same (fun _ => rfl) rfl rfl)
    (hcyc := fun s n h => h.of_same (fun _ => rfl) rfl rfl)
    (hwrite := fun s off v h => h.writeReg off v)
    (hend := fun s c k h hp => h.of_core_ended (h.pendingNotRunning c hp) (endOp_otherMailboxes (fun _ _ => rfl) k)
      (endOp_atRest c k s) rfl h.halted)
    (hexec := fun s i t h hp hexec => h.exec hp hexec)
    (hseq := fun s a h => h.sequencerStep a)
    (hwt := fun s h => h.of_same (wakeTrigger_mboxAt s) (wakeTrigger_seq s) (wakeTrigger_fault s))
    (hlt := fun s h => h.of_same (lpTick_mboxAt s) (lpTick_seq s) (lpTick_fault s))
    (hld := fun s h => h.of_same (lpDone_mboxAt s) (lpDone_seq s) (lpDone_fault s))
    (hht := fun s h => h.of_same (hpTick_mboxAt s) (hpTick_seq s) (hpTick_fault s))
    (hhd := fun s h => h.of_same (hpDone_mboxAt s) (hpDone_seq s) (hpDone_fault s))
    s t hs h

end Sys2Proof.Machine
end

section
/-! The PLL controllers under every step (10_state.md R17 to R19; 41_pll.md R103, R106). The invariant has two halves: the facts
on the PLLs and the configurations, which each body keeps by what it does to one controller, and the readiness of the script,
which depends on which PLLs are enabled and nothing else. -/

namespace Sys2Proof.Machine

/-! ### The readiness of a script -/

/-- A PLL that a calibration step may work on: enabled, or enabled by the script before. -/
def OnBefore (s : State) (on : List PllId) (id : PllId) : Prop := ((pllAt s id).enabled || on.contains id) = true

theorem calStepReady_mono {s t : State} {on on' : List PllId} (h : ∀ id, id.toNat < 8 → OnBefore s on id → OnBefore t on' id)
    {m : Micro} (hm : calStepReady s on m = true) : calStepReady t on' m = true := by
  have calibrates {id : PllId} (hid : (decide (id.toNat < 8) && ((pllAt s id).enabled || on.contains id)) = true) :
      (decide (id.toNat < 8) && ((pllAt t id).enabled || on'.contains id)) = true := by
    obtain ⟨hheld, hon⟩ := by simpa only [Bool.and_eq_true, decide_eq_true_eq] using hid
    simpa only [Bool.and_eq_true, decide_eq_true_eq] using ⟨hheld, h id hheld hon⟩
  cases m with
  | calDivide => exact calibrates hm
  | calStart => exact calibrates hm
  | calPoll => exact calibrates hm
  | calStop => exact calibrates hm
  | _ => exact hm

/-- A script that is ready stays so where every PLL it may find enabled is enabled still. -/
theorem calReady_mono {s t : State} (l : List Micro) {on on' : List PllId}
    (h : ∀ id, id.toNat < 8 → OnBefore s on id → OnBefore t on' id) (hl : calReady s on l) : calReady t on' l := by
  induction l generalizing on on' with
  | nil => trivial
  | cons m rest ih =>
    obtain ⟨hm, hend, hrest⟩ := hl
    refine ⟨calStepReady_mono h hm, hend, ?_⟩
    cases m with
    | pllEnable id =>
      refine ih (fun j hj hon => ?_) hrest
      by_cases he : j = id
      · simp [OnBefore, he]
      · have := h j hj (by simpa [OnBefore, he] using hon)
        simpa [OnBefore, he] using this
    | _ => exact ih h hrest

theorem calReady_congr {s t : State} (h : ∀ id, (pllAt t id).enabled = (pllAt s id).enabled) {on : List PllId}
    {l : List Micro} (hl : calReady s on l) : calReady t on l :=
  calReady_mono l (fun id _ hon => by unfold OnBefore; rw [h id]; exact hon) hl

/-- What is no calibration step needs no enabled PLL. -/
theorem calStepReady_of_not_cal {m : Micro} (hm : isCalStep m = false) (s t : State) (on on' : List PllId) :
    calStepReady t on' m = calStepReady s on m := by
  cases m with
  | calDivide => cases hm
  | calStart => cases hm
  | calPoll => cases hm
  | calStop => cases hm
  | _ => rfl

/-- A script without calibration steps is ready whatever is enabled. -/
theorem calReady_of_noCal {s t : State} {l : List Micro} {on on' : List PllId} (hno : l.any isCalStep = false)
    (hl : calReady s on l) : calReady t on' l := by
  induction l generalizing on on' with
  | nil => trivial
  | cons m rest ih =>
    obtain ⟨hm, hend, hrest⟩ := hl
    obtain ⟨hmno, hrno⟩ := by simpa only [List.any_cons, Bool.or_eq_false_iff] using hno
    exact ⟨(calStepReady_of_not_cal hmno s t on on').trans hm, hend, ih hrno hrest⟩

/-- A ready script followed by one without calibration steps. -/
theorem calReady_append_of_noCal {s : State} {l rest : List Micro} {on on' : List PllId} (hno : rest.any isCalStep = false)
    (hl : calReady s on l) (hrest : calReady s on' rest) : calReady s on (l ++ rest) := by
  induction l generalizing on with
  | nil => exact calReady_of_noCal hno hrest
  | cons m l ih =>
    obtain ⟨hm, hend, htail⟩ := hl
    refine ⟨hm, fun he => ?_, ih htail⟩
    change (l ++ rest).any isCalStep = false
    rw [List.any_append, hend he, hno, Bool.or_false]

/-- An item that needs nothing of the PLLs and changes nothing of them. -/
def CalFree (m : Micro) : Prop :=
  (∀ s on, calStepReady s on m = true) ∧ endsCalibration m = false ∧ ∀ id, m ≠ .pllEnable id

theorem calReady_cons_of_free {s : State} {on : List PllId} {m : Micro} {rest : List Micro} (hm : CalFree m)
    (h : calReady s on rest) : calReady s on (m :: rest) := by
  obtain ⟨hready, hends, hne⟩ := hm
  refine ⟨hready s on, fun he => absurd (hends.symm.trans he) Bool.noConfusion, ?_⟩
  cases m with
  | pllEnable id => exact absurd rfl (hne id)
  | _ => exact h

theorem calReady_map_append {s : State} {on : List PllId} {f : RegField → Micro} (hf : ∀ x, CalFree (f x)) (l : List RegField)
    {rest : List Micro} (h : calReady s on rest) : calReady s on (l.map f ++ rest) := by
  induction l with
  | nil => exact h
  | cons x l ih => exact calReady_cons_of_free (hf x) ih

/-- The writes of `apply(t)` and its end (40_clocktree.md R87). -/
theorem calReady_apply {s : State} {on : List PllId} {t : ClockConfig} {rest : List Micro} (ht : sourceHeld t = true)
    (h : calReady s on rest) : calReady s on (applyScript s.cfg s.clk.cur t ++ rest) := by
  have hend : calReady s on (.applyEnd t :: rest) := ⟨ht, fun he => Bool.noConfusion he, h⟩
  rw [applyScript, List.append_assoc]
  exact calReady_map_append (fun _ => ⟨fun _ _ => rfl, rfl, fun _ => Micro.noConfusion⟩) _ hend

/-- The PROGRAM body (42_sleep.md R128). -/
theorem calReady_program {s : State} {on : List PllId} {rest : List Micro} (h : calReady s on rest) :
    calReady s on (programScript s ++ rest) := by
  have hend : calReady s on (.setProgrammed :: rest) := ⟨rfl, fun he => Bool.noConfusion he, h⟩
  rw [programScript, List.append_assoc]
  exact calReady_map_append (fun _ => ⟨fun _ _ => rfl, rfl, fun _ => Micro.noConfusion⟩) _ hend

/-- `set_config(t)` (40_clocktree.md R90): no calibration step stands in it before step 3 is reached. -/
theorem calReady_setConfigScript {s : State} {t : ClockConfig} (ht : sourceHeld t = true) :
    calReady s [] (setConfigScript s t) := by
  have hend : calReady s [] [.apply t, .stepFive s.clk.cur.freqMhz t.freqMhz] :=
    ⟨ht, fun he => Bool.noConfusion he, rfl, fun he => Bool.noConfusion he, trivial⟩
  unfold setConfigScript
  refine calReady_append_of_noCal rfl (calReady_append_of_noCal (on' := []) ?_
    (calReady_append_of_noCal (on' := []) ?_ ?_ ?_) ?_) hend
  · split <;> rfl
  · split <;> rfl
  · split
    · exact ⟨rfl, fun he => Bool.noConfusion he, trivial⟩
    · trivial
  · split
    · exact ⟨rfl, fun _ => rfl, trivial⟩
    · trivial
  · split
    · exact ⟨ht, fun _ => rfl, trivial⟩
    · trivial

/-- Step 3 of `set_config(t)` (R90) calibrates a PLL that is enabled, or that it has just enabled. -/
theorem calReady_bringUpScript {s : State} {t : ClockConfig} (ht : sourceHeld t = true) (oldMhz : Word) :
    calReady s [] (bringUpScript s t oldMhz) := by
  unfold bringUpScript
  cases hsource : t.source with
  | pll q =>
    have hq : q.toNat < 8 := by simpa [sourceHeld, hsource] using ht
    dsimp only
    split_ifs with hon
    · simp [calReady, calStepReady, endsCalibration, hq, hon]
    · simp [calReady]
    · simp [calReady, calStepReady, endsCalibration, hq]
    · simp [calReady, calStepReady, endsCalibration, hq]
  | _ => trivial

/-- Resolving the head of a ready script leaves it ready. -/
theorem calReady_resolveHead (n : Nat) {s : State} {l : List Micro} (hsaved : sourceHeld s.slp.savedCfg = true)
    (hl : calReady s [] l) : calReady s [] (resolveHead n s l) := by
  induction n generalizing l with
  | zero => exact hl
  | succ n ih =>
    cases l with
    | nil => trivial
    | cons m rest =>
      obtain ⟨hm, hend, hrest⟩ := hl
      cases m with
      | setConfig t => exact ih (calReady_append_of_noCal (hend rfl) (calReady_setConfigScript hm) hrest)
      | restoreSaved => exact ih (calReady_append_of_noCal (hend rfl) (calReady_setConfigScript hsaved) hrest)
      | bringUp t oldMhz => exact ih (calReady_append_of_noCal (hend rfl) (calReady_bringUpScript hm oldMhz) hrest)
      | apply t => exact ih (calReady_apply hm hrest)
      | program => exact ih (calReady_program hrest)
      | _ => exact ⟨hm, hend, hrest⟩

/-- What the end of a micro-step leaves of a ready script is ready. -/
theorem calReady_advance {s : State} (l : List Micro) (u : State) (hl : calReady s [] l) :
    calReady s [] (advance l u).seq.script := by
  induction l, u using advance.induct with
  | case1 rest u ih =>
    obtain ⟨-, -, hrest⟩ := hl
    exact ih hrest
  | case2 e rest u => rw [advance_finish, finishOp_seq]; trivial
  | case3 l u h1 h2 => simpa [advance] using hl

/-! ### The facts on the PLLs and the configurations -/

/-- The calibration invariant without its clause on the script. -/
structure CalibrationFacts (s : State) : Prop where
  chip : cfgOk s.cfg = true
  disabled : ∀ id : PllId, (pllAt s id).enabled = false → (pllAt s id).configuredFreqMhz = 0
  polls : ∀ id : PllId, (pllAt s id).calPollsLeft ≤ s.cfg.calTimeoutPolls
  current : (pllAt s s.lastCalPll).configuredFreqMhz = s.curPllFreqMhz
  curHeld : sourceHeld s.clk.cur = true
  savedHeld : sourceHeld s.slp.savedCfg = true

theorem calibrationInv_iff (s : State) : CalibrationInv s ↔ CalibrationFacts s ∧ calReady s [] s.seq.script :=
  ⟨fun ⟨h1, h2, h3, h4, h5, h6, h7⟩ => ⟨⟨h1, h2, h3, h4, h5, h6⟩, h7⟩,
    fun ⟨⟨h1, h2, h3, h4, h5, h6⟩, h7⟩ => ⟨h1, h2, h3, h4, h5, h6, h7⟩⟩

/-- The chip, the applied configuration and the saved one are the same. -/
def SameConfigs (s t : State) : Prop := t.cfg = s.cfg ∧ t.clk.cur = s.clk.cur ∧ t.slp.savedCfg = s.slp.savedCfg

/-- Nothing that the facts speak of has changed. -/
structure SameCalibration (s t : State) : Prop where
  configs : SameConfigs s t
  plls : ∀ id, pllAt t id = pllAt s id
  freq : t.curPllFreqMhz = s.curPllFreqMhz
  last : t.lastCalPll = s.lastCalPll

/-- An update of SleepSequencer that keeps the saved configuration, made or not. -/
theorem ite_setSlp_same {c : Prop} [Decidable c] {z : SleepSeq} {s : State} (hz : z.savedCfg = s.slp.savedCfg) :
    SameCalibration s (if c then setSlp z s else s) := by
  split
  · exact ⟨⟨rfl, rfl, hz⟩, fun _ => rfl, rfl, rfl⟩
  · exact ⟨⟨rfl, rfl, rfl⟩, fun _ => rfl, rfl, rfl⟩

theorem CalibrationFacts.of_same {s t : State} (h : CalibrationFacts s) (hst : SameCalibration s t) : CalibrationFacts t := by
  obtain ⟨⟨hcfg, hcur, hsaved⟩, hplls, hfreq, hlast⟩ := hst
  refine ⟨?_, fun id => ?_, fun id => ?_, ?_, ?_, ?_⟩
  · rw [hcfg]; exact h.chip
  · rw [hplls]; exact h.disabled id
  · rw [hplls, hcfg]; exact h.polls id
  · rw [hplls, hlast, hfreq]; exact h.current
  · rw [hcur]; exact h.curHeld
  · rw [hsaved]; exact h.savedHeld

/-- `t` is `s` with the controller of `id` replaced by `p`, as far as the PLLs go. -/
def PllReplaced (id : PllId) (p : Pll) (s t : State) : Prop :=
  ∀ j, pllAt t j = if j = id ∧ id.toNat < 8 then p else pllAt s j

theorem PllReplaced.enabled {id : PllId} {p : Pll} {s t : State} (h : PllReplaced id p s t)
    (hp : p.enabled = (pllAt s id).enabled) (j : PllId) : (pllAt t j).enabled = (pllAt s j).enabled := by
  rw [h j]
  split
  case isTrue hj => rw [hj.1, hp]
  case isFalse => rfl

/-- One controller replaced by one that satisfies the facts, with `cur_pll_freq_mhz` kept true. -/
theorem CalibrationFacts.of_replaced {s t : State} {id : PllId} {p : Pll} (h : CalibrationFacts s)
    (hpll : PllReplaced id p s t) (hst : SameConfigs s t) (hdisabled : p.enabled = false → p.configuredFreqMhz = 0)
    (hpolls : p.calPollsLeft ≤ s.cfg.calTimeoutPolls)
    (hcurrent : (pllAt t t.lastCalPll).configuredFreqMhz = t.curPllFreqMhz) : CalibrationFacts t := by
  obtain ⟨hcfg, hcur, hsaved⟩ := hst
  refine ⟨?_, fun j => ?_, fun j => ?_, hcurrent, ?_, ?_⟩
  · rw [hcfg]; exact h.chip
  · rw [hpll j]; split
    · exact hdisabled
    · exact h.disabled j
  · rw [hpll j, hcfg]; split
    · exact hpolls
    · exact h.polls j
  · rw [hcur]; exact h.curHeld
  · rw [hsaved]; exact h.savedHeld

/-- One controller replaced by one of the same configured frequency. -/
theorem CalibrationFacts.of_sameFreq {s t : State} {id : PllId} {p : Pll} (h : CalibrationFacts s)
    (hpll : PllReplaced id p s t) (hst : SameConfigs s t) (hfreq : p.configuredFreqMhz = (pllAt s id).configuredFreqMhz)
    (henabled : (pllAt s id).enabled = true → p.enabled = true) (hpolls : p.calPollsLeft ≤ s.cfg.calTimeoutPolls)
    (hcur : t.curPllFreqMhz = s.curPllFreqMhz) (hlast : t.lastCalPll = s.lastCalPll) : CalibrationFacts t := by
  refine h.of_replaced hpll hst (fun hp => ?_) hpolls ?_
  · rw [hfreq]
    refine h.disabled id ?_
    by_contra hon
    exact Bool.noConfusion (hp.symm.trans (henabled (by simpa using hon)))
  · rw [hpll, hlast, hcur, ← h.current]
    split
    case isTrue hj => rw [hfreq, hj.1]
    case isFalse => rfl

/-- One controller is no longer configured, and `cur_pll_freq_mhz` is forgotten where it was that PLL's (41_pll.md R103,
R106). -/
theorem CalibrationFacts.of_forgotten {s t : State} {id : PllId} {p : Pll} (h : CalibrationFacts s)
    (hpll : PllReplaced id p s t) (hst : SameConfigs s t) (hfreq : p.configuredFreqMhz = 0)
    (hpolls : p.calPollsLeft ≤ s.cfg.calTimeoutPolls)
    (hcur : t.curPllFreqMhz = if s.lastCalPll = id then 0 else s.curPllFreqMhz) (hlast : t.lastCalPll = s.lastCalPll) :
    CalibrationFacts t := by
  refine h.of_replaced hpll hst (fun _ => hfreq) hpolls ?_
  rw [hpll, hlast, hcur]
  by_cases hid : s.lastCalPll = id
  · by_cases hheld : id.toNat < 8
    · simp [hid, hheld, hfreq]
    · simp [hid, hheld, pllAt_beyond hheld, Pll.reset]
  · simp [hid, h.current]

/-! ### What the bodies do to the facts -/

theorem CalibrationFacts.applyEnd {s : State} {t : ClockConfig} (h : CalibrationFacts s) (ht : sourceHeld t = true) :
    CalibrationFacts (doApplyEnd t s) :=
  ⟨h.chip, h.disabled, h.polls, h.current, ht, h.savedHeld⟩

theorem CalibrationFacts.pllEnable {s : State} (h : CalibrationFacts s) (id : PllId) :
    CalibrationFacts (pllEnableBody id s) :=
  h.of_sameFreq (fun j => pllAt_pllEnableBody id j s) ⟨rfl, rfl, rfl⟩ rfl (fun _ => rfl) (h.polls id) rfl rfl

theorem CalibrationFacts.pllDisable {s : State} (h : CalibrationFacts s) (id : PllId) :
    CalibrationFacts (pllDisableBody id s) :=
  h.of_forgotten (fun j => pllAt_pllDisableBody id j s) ⟨by simp, by simp, by simp⟩ rfl (h.polls id)
    (pllDisableBody_curPllFreqMhz id s) (pllDisableBody_lastCalPll id s)

theorem CalibrationFacts.dropPll {s : State} (h : CalibrationFacts s) (id : PllId) : CalibrationFacts (doDropPll id s) := by
  unfold doDropPll
  split
  · exact h.pllDisable id
  · exact h

theorem doCalDivide_replaced (id : PllId) (x t : Word) (s : State) :
    PllReplaced id { pllAt s id with configuredFreqMhz := 0 } s (doCalDivide id x t s) :=
  fun j => pllAt_doCalDivide id j x t s

theorem CalibrationFacts.calDivide {s : State} (h : CalibrationFacts s) (id : PllId) (x t : Word) :
    CalibrationFacts (doCalDivide id x t s) :=
  h.of_forgotten (doCalDivide_replaced id x t s) ⟨by simp, by simp, by simp⟩ rfl (h.polls id)
    (doCalDivide_curPllFreqMhz id x t s) (doCalDivide_lastCalPll id x t s)

theorem doCalStart_replaced (id : PllId) (s : State) :
    PllReplaced id { pllAt s id with calState := .calStarted, calPollsLeft := s.cfg.calTimeoutPolls } s (doCalStart id s) :=
  fun j => pllAt_doCalStart id j s

theorem CalibrationFacts.calStart {s : State} (h : CalibrationFacts s) (id : PllId) : CalibrationFacts (doCalStart id s) :=
  h.of_sameFreq (doCalStart_replaced id s) ⟨rfl, rfl, rfl⟩ rfl (fun he => he) le_rfl rfl rfl

theorem calPolled_replaced (id : PllId) (a : Bool) (s : State) :
    PllReplaced id { pllAt s id with calPollsLeft := (pllAt s id).calPollsLeft - 1 } s (calPolled id a s) :=
  fun j => pllAt_calPolled id j a s

theorem CalibrationFacts.calPolled {s : State} (h : CalibrationFacts s) (id : PllId) (a : Bool) :
    CalibrationFacts (calPolled id a s) :=
  h.of_sameFreq (calPolled_replaced id a s) ⟨rfl, rfl, rfl⟩ rfl (fun he => he) ((Nat.sub_le _ _).trans (h.polls id)) rfl rfl

theorem doCalStop_replaced (id : PllId) (t : Word) (s : State) :
    PllReplaced id { pllAt s id with calState := .calIdle, configuredFreqMhz := t } s (doCalStop id t s) :=
  fun j => pllAt_doCalStop id j t s

/-- The stop of a calibration configures an enabled PLL, which is the one last calibrated then (41_pll.md R103). -/
theorem CalibrationFacts.calStop {s : State} {id : PllId} (h : CalibrationFacts s) (hheld : id.toNat < 8)
    (hon : (pllAt s id).enabled = true) (t : Word) : CalibrationFacts (doCalStop id t s) := by
  refine h.of_replaced (doCalStop_replaced id t s) ⟨rfl, rfl, rfl⟩ (fun hoff => ?_) (h.polls id) ?_
  · exact Bool.noConfusion (hon.symm.trans hoff)
  · rw [doCalStop_lastCalPll, doCalStop_replaced id t s id, if_pos ⟨rfl, hheld⟩, doCalStop_curPllFreqMhz]

theorem setConsumers_replaced (id : PllId) (n : Word) (s : State) :
    PllReplaced id { pllAt s id with consumerCount := n } s (setConsumers id n s) :=
  fun j => pllAt_setConsumers id j n s

theorem CalibrationFacts.setConsumers {s : State} (h : CalibrationFacts s) (id : PllId) (n : Word) :
    CalibrationFacts (setConsumers id n s) :=
  h.of_sameFreq (setConsumers_replaced id n s) ⟨rfl, rfl, rfl⟩ rfl (fun he => he) (h.polls id) rfl rfl

/-! ### How an op goes on -/

@[simp] theorem advance_savedCfg (l : List Micro) (s : State) : (advance l s).slp.savedCfg = s.slp.savedCfg := by
  induction l, s using advance.induct with
  | case1 rest s ih => exact ih
  | case2 e rest s => simp
  | case3 l s h1 h2 => simp [advance]

theorem advance_same (l : List Micro) (s : State) : SameCalibration s (advance l s) :=
  ⟨⟨by simp, by simp, by simp⟩, by simp, by simp, by simp⟩

theorem raiseFatal_same (c : Core) (q : Bool) (k : StatusCode) (info : BitVec 16) (s : State) :
    SameCalibration s (raiseFatal c q k info s) :=
  ⟨⟨by simp, by simp, by simp⟩, by simp, by simp, by simp⟩

/-- A fatal fault leaves the script as it was or drops it (60_exceptions.md R156). -/
theorem raiseFatal_script (c : Core) (q : Bool) (k : StatusCode) (info : BitVec 16) (s : State) :
    (raiseFatal c q k info s).seq.script = s.seq.script ∧ q = false ∨ (raiseFatal c q k info s).seq.script = [] := by
  cases q with
  | true => right; simp [raiseFatal, abandonOther]
  | false =>
    by_cases hother : s.seq.busy = true ∧ s.seq.owner ≠ c
    · right; simp [raiseFatal, abandonOther, hother]
    · left; simp [raiseFatal, abandonOther, hother]

theorem CalibrationFacts.advance {s : State} (h : CalibrationFacts s) {l : List Micro} (hl : calReady s [] l) :
    CalibrationInv (advance l s) :=
  (calibrationInv_iff _).2 ⟨h.of_same (advance_same l s), calReady_congr (by simp) (calReady_advance l s hl)⟩

/-- A body that touches none of the PLLs, and the end of its micro-step. -/
theorem CalibrationFacts.advance_same {s u : State} (h : CalibrationFacts s) (hsame : SameCalibration s u) {l : List Micro}
    (hl : calReady s [] l) : CalibrationInv (Machine.advance l u) :=
  (h.of_same hsame).advance (calReady_congr (fun id => by rw [hsame.plls id]) hl)

theorem CalibrationFacts.raiseFatal_owner {s : State} (h : CalibrationFacts s) (k : StatusCode) (info : BitVec 16) :
    CalibrationInv (raiseFatal s.seq.owner true k info s) := by
  refine (calibrationInv_iff _).2 ⟨h.of_same (raiseFatal_same _ _ k info s), ?_⟩
  obtain ⟨-, hq⟩ | hnil := raiseFatal_script s.seq.owner true k info s
  · cases hq
  · rw [hnil]; trivial

/-- An action that touches neither the PLLs nor the script. -/
theorem CalibrationInv.of_same {s t : State} (h : CalibrationInv s) (hst : SameCalibration s t)
    (hscript : t.seq.script = s.seq.script) : CalibrationInv t := by
  obtain ⟨hfacts, hready⟩ := (calibrationInv_iff s).1 h
  refine (calibrationInv_iff t).2 ⟨hfacts.of_same hst, ?_⟩
  rw [hscript]
  exact calReady_congr (fun id => by rw [hst.plls id]) hready

/-! ### The micro-steps -/

theorem doProgWrite_same (f : RegField) (s : State) : SameCalibration s (doProgWrite f s) :=
  ⟨⟨rfl, rfl, by cases f <;> rfl⟩, fun _ => rfl, rfl, rfl⟩

theorem doSleepStart_same (s : State) : SameCalibration s (doSleepStart s) := by
  refine ⟨⟨rfl, rfl, ?_⟩, fun _ => rfl, rfl, rfl⟩
  simp only [doSleepStart, sleepStartReaction, setSlp_slp]
  split <;> rfl

theorem doStepFive_same (a b : Word) (s : State) : SameCalibration s (doStepFive a b s) :=
  ⟨⟨rfl, rfl, rfl⟩, fun _ => rfl, rfl, rfl⟩

/-- The timeout marks its controller, after a clock switch scales the counter, and faults (40_clocktree.md R93). -/
theorem CalibrationFacts.calTimeout {s : State} (h : CalibrationFacts s) (id : PllId) (o : Option Word) :
    CalibrationInv (calTimeout id o s) := by
  have hfailed : CalibrationFacts (setPll id { pllAt s id with calState := .calFailed } s) :=
    h.of_sameFreq (fun j => pllAt_setPll id j _ s) ⟨rfl, rfl, rfl⟩ rfl (fun he => he) (h.polls id) rfl rfl
  cases o with
  | none => exact hfailed.raiseFatal_owner .calibrationTimeout (pllFaultInfo id 0)
  | some f =>
    exact (hfailed.of_same (doStepFive_same f s.clk.cur.freqMhz _)).raiseFatal_owner .calibrationTimeout (pllFaultInfo id 0)

/-- A calibration poll goes on, polls again or times out (41_pll.md R103). -/
theorem CalibrationFacts.calPoll {s : State} (h : CalibrationFacts s) {id : PllId} {o : Option Word} {rest : List Micro}
    (hl : calReady s [] (.calPoll id o :: rest)) (a : Bool) : CalibrationInv (doCalPoll id o rest a s) := by
  have hfacts := h.calPolled id a
  have hready : calReady (Machine.calPolled id a s) [] (.calPoll id o :: rest) :=
    calReady_congr ((calPolled_replaced id a s).enabled rfl) hl
  have ⟨_, _, hrest⟩ := hready
  unfold doCalPoll
  dsimp only
  split_ifs
  · exact hfacts.advance hrest
  · exact hfacts.calTimeout id o
  · exact hfacts.advance hready

/-- The body of PLL_DISABLE disables, or faults where a consumer is left (41_pll.md R107). -/
theorem CalibrationFacts.pllDisableStep {s : State} (h : CalibrationFacts s) {id : PllId} {rest : List Micro}
    (hl : calReady s [] (.pllDisable id :: rest)) : CalibrationInv (doPllDisable id rest s) := by
  obtain ⟨-, hend, hrest⟩ := hl
  unfold doPllDisable
  split
  · exact (h.pllDisable id).advance (calReady_of_noCal (hend rfl) hrest)
  · exact h.raiseFatal_owner _ _

theorem CalibrationFacts.pollStatus {s : State} (h : CalibrationFacts s) {rest : List Micro}
    (hl : calReady s [] (.pollStatus :: rest)) : CalibrationInv (doPollStatus rest s) := by
  have ⟨_, _, hrest⟩ := hl
  unfold doPollStatus
  dsimp only
  split
  · refine h.advance_same ?_ hrest
    exact ⟨⟨rfl, rfl, rfl⟩, fun _ => rfl, rfl, rfl⟩
  · refine h.advance_same ?_ hl
    exact ⟨⟨rfl, rfl, rfl⟩, fun _ => rfl, rfl, rfl⟩

theorem CalibrationFacts.pollAux {s : State} (h : CalibrationFacts s) {rest : List Micro}
    (hl : calReady s [] (.pollAux :: rest)) (a : Bool) : CalibrationInv (doPollAux rest a s) := by
  have ⟨_, _, hrest⟩ := hl
  unfold doPollAux
  refine h.advance_same ?_ ?_
  · exact ⟨⟨rfl, rfl, rfl⟩, fun _ => rfl, rfl, rfl⟩
  · cases a
    · exact hl
    · exact hrest

/-- Every micro-step keeps the invariant, where the script it stands in is ready. -/
theorem CalibrationInv.runMicro {s : State} (h : CalibrationInv s) {m : Micro} {rest : List Micro}
    (hl : calReady s [] (m :: rest)) (a : Bool) : CalibrationInv (runMicro m rest a s) := by
  obtain ⟨hfacts, -⟩ := (calibrationInv_iff s).1 h
  have ⟨hm, hend, hrest⟩ := hl
  cases m with
  | setConfig t => exact h
  | restoreSaved => exact h
  | bringUp t o => exact h
  | apply t => exact h
  | program => exact h
  | applyEnd t => exact (hfacts.applyEnd hm).advance (calReady_congr (fun id => by rw [doApplyEnd_pllAt]) hrest)
  | dropPll id => exact (hfacts.dropPll id).advance (calReady_of_noCal (hend rfl) hrest)
  | pllEnable id =>
    refine (hfacts.pllEnable id).advance (calReady_mono rest (fun j hj hon => ?_) hrest)
    have hpll := pllAt_pllEnableBody id j s
    by_cases he : j = id
    · subst he; simp [OnBefore, hpll, hj]
    · simpa [OnBefore, hpll, he] using hon
  | pllDisable id => exact hfacts.pllDisableStep hl
  | calDivide id x g =>
    exact (hfacts.calDivide id x g).advance (calReady_congr ((doCalDivide_replaced id x g s).enabled rfl) hrest)
  | calStart id => exact (hfacts.calStart id).advance (calReady_congr ((doCalStart_replaced id s).enabled rfl) hrest)
  | calPoll id o => exact hfacts.calPoll hl a
  | calStop id g =>
    obtain ⟨hheld, hon⟩ : id.toNat < 8 ∧ (pllAt s id).enabled = true := by simpa [calStepReady] using hm
    exact (hfacts.calStop hheld hon g).advance (calReady_congr ((doCalStop_replaced id g s).enabled rfl) hrest)
  | progWrite f => exact hfacts.advance_same (doProgWrite_same f s) hrest
  | sleepStart => exact hfacts.advance_same (doSleepStart_same s) hrest
  | pollStatus => exact hfacts.pollStatus hl
  | pollAux => exact hfacts.pollAux hl a
  | setProgrammed => exact hfacts.advance hl
  | finish e => exact hfacts.advance hl
  | _ =>
    refine hfacts.advance_same ?_ hrest
    exact ⟨⟨rfl, rfl, rfl⟩, fun _ => rfl, rfl, rfl⟩

theorem CalibrationInv.sequencerStep {s : State} (h : CalibrationInv s) (a : Bool) : CalibrationInv (sequencerStep a s) := by
  obtain hsame | ⟨m, rest, -, -, hhead, hrun⟩ := sequencerStep_cases a s
  · rwa [hsame]
  · rw [hrun]
    refine h.runMicro ?_ a
    rw [← hhead]
    exact calReady_resolveHead 4 h.savedHeld h.ready

/-! ### Acceptances and the other actions -/

theorem nPll_le_of_cfgOk {cfg : Cfg} (h : cfgOk cfg = true) : cfg.nPll ≤ 8 := by
  simp only [cfgOk, Bool.and_eq_true, decide_eq_true_eq] at h
  obtain ⟨⟨⟨⟨⟨⟨⟨⟨⟨-, -, hmost⟩, -⟩, -⟩, -⟩, -⟩, -⟩, -⟩, -⟩, -⟩ := h
  exact hmost

/-- A valid configuration names a PLL the model holds. -/
theorem sourceHeld_of_valid {cfg : Cfg} {k : ClockConfig} (hcfg : cfgOk cfg = true) (hk : validConfig cfg k = true) :
    sourceHeld k = true := by
  unfold sourceHeld
  unfold validConfig at hk
  cases hsource : k.source with
  | pll id =>
    simp only [hsource, Bool.and_eq_true, decide_eq_true_eq] at hk ⊢
    obtain ⟨-, hid, -⟩ := hk
    exact hid.trans_le (nPll_le_of_cfgOk hcfg)
  | _ => rfl

theorem toNat_lt_of_pllIdOk {cfg : Cfg} {id : PllId} (hcfg : cfgOk cfg = true) (hid : pllIdOk cfg id = true) :
    id.toNat < 8 :=
  (of_decide_eq_true hid).trans_le (nPll_le_of_cfgOk hcfg)

/-- Every op starts with a ready script. -/
theorem StartOf.calReady {s : State} {i : Instr} {prep : State → State} {script : List Micro} (h : StartOf s i prep script)
    (hcfg : cfgOk s.cfg = true) : calReady s [] script := by
  cases h with
  | clock i k hk =>
    exact ⟨sourceHeld_of_valid hcfg (clockTarget_valid hcfg hk), fun _ => rfl, rfl, fun _ => rfl, trivial⟩
  | enable id hid =>
    have hheld := toNat_lt_of_pllIdOk hcfg hid
    simp [Machine.calReady, calStepReady, endsCalibration, hheld]
  | cal id x g hid hx hon hc =>
    have hheld := toNat_lt_of_pllIdOk hcfg hid
    simp [Machine.calReady, calStepReady, endsCalibration, hheld, hon]
  | sleep =>
    simp [Machine.calReady, calStepReady, endsCalibration, enterScript, isCalStep, sourceHeld, xtalNative]
  | _ => simp [Machine.calReady, calStepReady, endsCalibration, enterScript, isCalStep]

/-- The acceptance effects keep the facts: ENTER_SLEEP saves the applied configuration (42_sleep.md R135). -/
theorem StartOf.prep_facts {s : State} {i : Instr} {prep : State → State} {script : List Micro} (h : StartOf s i prep script)
    (hfacts : CalibrationFacts s) : CalibrationFacts (prep s) ∧ ∀ id, pllAt (prep s) id = pllAt s id := by
  have hdiscard : SameCalibration s (discardParams s) := ite_setSlp_same rfl
  cases h with
  | clock => exact ⟨hfacts.of_same hdiscard, hdiscard.plls⟩
  | sleep =>
    have h := hfacts.of_same hdiscard
    exact ⟨⟨h.chip, h.disabled, h.polls, h.current, h.curHeld, hfacts.curHeld⟩, hdiscard.plls⟩
  | _ => exact ⟨hfacts, fun _ => rfl⟩

theorem CalibrationFacts.start {s : State} (h : CalibrationFacts s) {script : List Micro} (hl : calReady s [] script) :
    CalibrationInv (start script s) := by
  unfold Machine.start
  refine h.advance_same ?_ hl
  exact ⟨⟨rfl, rfl, rfl⟩, fun _ => rfl, rfl, rfl⟩

theorem endOp_same (c : Core) (k : StatusCode) (s : State) : SameCalibration s (endOp c k s) :=
  ⟨⟨rfl, rfl, rfl⟩, fun _ => rfl, rfl, rfl⟩

theorem setResConfig_same (c : Core) (k : ClockConfig) (s : State) : SameCalibration s (setResConfig c k s) :=
  ⟨⟨rfl, rfl, rfl⟩, fun _ => rfl, rfl, rfl⟩

theorem setResMode_same (c : Core) (p : ModeParams) (s : State) : SameCalibration s (setResMode c p s) :=
  ⟨⟨rfl, rfl, rfl⟩, fun _ => rfl, rfl, rfl⟩

theorem CalibrationInv.exec {s t : State} {i : Instr} (h : CalibrationInv s) (hexec : exec i s = .next t) :
    CalibrationInv t := by
  obtain ⟨hfacts, hready⟩ := (calibrationInv_iff s).1 h
  have hconsumers (id : PllId) (n : Word) : CalibrationInv (Machine.setConsumers id n s) :=
    (calibrationInv_iff _).2 ⟨hfacts.setConsumers id n, calReady_congr ((setConsumers_replaced id n s).enabled rfl) hready⟩
  have ended {u : State} (hu : CalibrationInv u) (k : StatusCode) : CalibrationInv (endOp s.env.picked k u) :=
    hu.of_same (endOp_same _ k u) rfl
  obtain ⟨k, rfl⟩ | rfl | ⟨-, -, prep, script, hstart, rfl⟩ | ⟨-, -, himm⟩ := exec_cases i s t hexec
  · exact ended h k
  · exact h
  · obtain ⟨hprep, hplls⟩ := hstart.prep_facts hfacts
    exact hprep.start (calReady_congr (fun id => by rw [hplls id]) (hstart.calReady hfacts.chip))
  · obtain ⟨f, k, -, rfl⟩ | ⟨-, rfl⟩ | ⟨id, -, -, rfl⟩ | ⟨id, -, -, rfl⟩ | ⟨id, -, -, rfl⟩ | ⟨k, p, -, rfl⟩ := himm
    · exact ended (h.of_same (setResConfig_same _ k s) rfl) .ok
    · exact ended (h.of_same (setResConfig_same _ _ s) rfl) .ok
    · exact ended (hconsumers id _) .ok
    · exact ended (hconsumers id _) .ok
    · refine (calibrationInv_iff _).2 ⟨hfacts.of_same (raiseFatal_same _ _ _ _ s), ?_⟩
      obtain ⟨hkept, -⟩ | hnil := raiseFatal_script s.env.picked false .consumerAccountingViolation (pllFaultInfo id 2) s
      · rw [hkept]; exact calReady_congr (by simp) hready
      · rw [hnil]; trivial
    · exact ended (h.of_same (setResMode_same _ p s) rfl) .ok

theorem writeReg_same (off : Nat) (v : Word) (s : State) : SameCalibration s (writeReg off v s) := by
  obtain ⟨mb, z, hw, p, b, l, hz⟩ := writeReg_frame off v s
  rw [hw, hz]
  exact ⟨⟨rfl, rfl, rfl⟩, fun _ => rfl, rfl, rfl⟩

theorem calibrationInv_resetOf {cfg : Cfg} (h : cfgOk cfg = true) : CalibrationInv (State.resetOf cfg) where
  chip := h
  disabled id _ := by rw [pllAt_resetOf]; rfl
  polls id := by rw [pllAt_resetOf]; exact Nat.zero_le _
  current := by rw [pllAt_resetOf]; rfl
  curHeld := rfl
  savedHeld := rfl
  ready := trivial

/-- Settles O58: acceptances and micro-steps are the only actions that reach the PLLs or the script. -/
theorem stepKeepsCalibrationInv : Obligations.StepKeepsCalibrationInv := by
  intro s t hs h
  exact step_keeps CalibrationInv
    (henv := fun s e h => h.of_same ⟨⟨rfl, rfl, rfl⟩, fun _ => rfl, rfl, rfl⟩ rfl)
    (hreset := fun s h => (calibrationInv_resetOf h.chip).of_same ⟨⟨rfl, rfl, rfl⟩, fun _ => rfl, rfl, rfl⟩ rfl)
    (hcyc := fun s n h => h.of_same ⟨⟨rfl, rfl, rfl⟩, fun _ => rfl, rfl, rfl⟩ rfl)
    (hwrite := fun s off v h => h.of_same (writeReg_same off v s) (by simp))
    (hend := fun s c k h _ => h.of_same (endOp_same c k s) rfl)
    (hexec := fun s i t h _ hexec => h.exec hexec)
    (hseq := fun s a h => h.sequencerStep a)
    (hwt := fun s h => h.of_same (ite_setSlp_same rfl) (by simp))
    (hlt := fun s h => h.of_same (ite_setSlp_same rfl) (by simp))
    (hld := fun s h => h.of_same (ite_setSlp_same rfl) (by simp))
    (hht := fun s h => h.of_same (ite_setSlp_same rfl) (by simp))
    (hhd := fun s h => h.of_same (ite_setSlp_same rfl) (by simp))
    s t hs h

end Sys2Proof.Machine
end

section
/-! Where a step can stop (20_memory.md R40; log 12): every op answers a next state, and of the actions only a host access
outside the window does not. -/

namespace Sys2Proof.Machine

/-! ### Acceptance always answers -/

theorem immediate_total (checks : List (Bool × StatusCode)) (body : State → State) (s : State) :
    ∃ t, immediate checks body s = .next t := ⟨_, rfl⟩

theorem sequenced_total (checks : List (Bool × StatusCode)) (prep : State → State) (script : List Micro) (s : State) :
    ∃ t, sequenced checks prep script s = .next t := ⟨_, rfl⟩

/-- Each op is an immediate one or a sequenced one, and both answer (30_encoding.md R72). -/
theorem exec_total (i : Instr) (s : State) : ∃ t, exec i s = .next t := by
  cases i with
  | resolve | getCpuFreq | pllAddConsumer | pllRemoveConsumer | cfgPwrModeDefaults =>
    dsimp only [exec]; exact immediate_total _ _ s
  | _ => dsimp only [exec]; exact sequenced_total _ _ _ s

theorem acceptCommand_total (c : Core) (s : State) : ∃ t, acceptCommand c s = .next t := by
  unfold acceptCommand
  split
  · split
    · exact exec_total _ _
    · exact ⟨_, rfl⟩
  · exact ⟨_, rfl⟩

/-! ### Host accesses by their place -/

/-- An access is admitted exactly when it is an aligned word (20_memory.md R42). -/
theorem accessAdmitted_iff (addr : Word) (bytes : Nat) :
    accessAdmitted addr bytes = true ↔ bytes = 4 ∧ addr.toNat % 4 = 0 := by
  simp [accessAdmitted]

theorem act_hostWrite_inside {s : State} {addr : Word} (h : windowOffset s.cfg addr < 0x1000) (bytes : Nat) (v : Word) :
    act (.hostWrite addr bytes v) s =
      .next (if accessAdmitted addr bytes then writeReg (windowOffset s.cfg addr) v s else s) :=
  if_pos h

theorem act_hostWrite_outside {s : State} {addr : Word} (h : 0x1000 ≤ windowOffset s.cfg addr) (bytes : Nat) (v : Word) :
    act (.hostWrite addr bytes v) s = .fault .outsideWindow :=
  if_neg (Nat.not_lt.2 h)

theorem act_hostRead_inside {s : State} {addr : Word} (h : windowOffset s.cfg addr < 0x1000) (bytes : Nat) :
    act (.hostRead addr bytes) s =
      .next (setEnv
        { s.env with readData := if accessAdmitted addr bytes then some (readReg s (windowOffset s.cfg addr)) else none } s) :=
  if_pos h

theorem act_hostRead_outside {s : State} {addr : Word} (h : 0x1000 ≤ windowOffset s.cfg addr) (bytes : Nat) :
    act (.hostRead addr bytes) s = .fault .outsideWindow :=
  if_neg (Nat.not_lt.2 h)

/-! ### Every action -/

/-- `a` is a host access at an offset outside the window of the chip `cfg` (20_memory.md R40). -/
def AccessOutside (cfg : Cfg) (a : Action) : Prop :=
  ∃ (addr : Word) (bytes : Nat), 0x1000 ≤ windowOffset cfg addr ∧
    (a = .hostRead addr bytes ∨ ∃ v, a = .hostWrite addr bytes v)

theorem act_next_or_outside (a : Action) (s : State) :
    (∃ t, act a s = .next t) ∨ (act a s = .fault .outsideWindow ∧ AccessOutside s.cfg a) := by
  cases a with
  | hostWrite addr bytes v =>
    obtain hin | hout := Nat.lt_or_ge (windowOffset s.cfg addr) 0x1000
    · exact .inl ⟨_, act_hostWrite_inside hin bytes v⟩
    · exact .inr ⟨act_hostWrite_outside hout bytes v, addr, bytes, hout, .inr ⟨v, rfl⟩⟩
  | hostRead addr bytes =>
    obtain hin | hout := Nat.lt_or_ge (windowOffset s.cfg addr) 0x1000
    · exact .inl ⟨_, act_hostRead_inside hin bytes⟩
    · exact .inr ⟨act_hostRead_outside hout bytes, addr, bytes, hout, .inl rfl⟩
  | accept c => exact .inl (acceptCommand_total c s)
  | _ => exact .inl ⟨_, rfl⟩

@[simp] theorem choiceTaken_cfg (s : State) : (choiceTaken s).cfg = s.cfg := by
  obtain ⟨e, he⟩ := choiceTaken_eq s
  rw [he]; rfl

/-- Settles O6: `exec_total`, and `act_next_or_outside` for the action that comes next; taking the choice moves no window. -/
theorem stepStopsOnlyOutsideTheWindow : Obligations.StepStopsOnlyOutsideTheWindow := by
  refine ⟨exec_total, fun s => ?_⟩
  have hact := act_next_or_outside (nextAction s) (choiceTaken s)
  rwa [choiceTaken_cfg] at hact

end Sys2Proof.Machine
end

section
/-! Reads of the host window (10_state.md R35, R36; 20_memory.md R42, R44): which element each register and each reserved offset
reads. -/

namespace Sys2Proof.Machine

/-! ### The views behind each range of offsets -/

/-- `BUDGET[j]` (R35). -/
theorem readReg_budget {j : Nat} (h : j < 7) (s : State) :
    readReg s (0x040 + 4 * j) = budgetView s.slp.params.budget j := by
  have hj : (0x040 + 4 * j - 0x040) / 4 = j := by omega
  rw [readReg, if_neg (by omega), if_pos (by omega), hj]

/-- `HWWAIT[j]` (R35). -/
theorem readReg_hwwait {j : Nat} (h : j < 7) (s : State) : readReg s (0x060 + 4 * j) = budgetView s.slp.hwwait j := by
  have hj : (0x060 + 4 * j - 0x060) / 4 = j := by omega
  rw [readReg, if_neg (by omega), if_neg (by omega), if_neg (by omega), if_pos (by omega), hj]

/-- Offset `r` of the views of PLL `id` (R35). -/
theorem readReg_pll {id r : Nat} (hid : id < 8) (hr : r < 0x10) (s : State) :
    readReg s (0x080 + 0x10 * id + r) = pllView s id r := by
  have hdiv : (0x080 + 0x10 * id + r - 0x080) / 0x10 = id := by omega
  have hmod : (0x080 + 0x10 * id + r - 0x080) % 0x10 = r := by omega
  rw [readReg, if_neg (by omega), if_neg (by omega), if_neg (by omega), if_neg (by omega), if_neg (by omega),
    if_pos (by omega), hdiv, hmod]

/-- Offset `r` of the mailbox of core `c` (R36). -/
theorem readReg_mailbox (c : Core) {r : Nat} (hr : r < 0x40) (s : State) :
    readReg s (0x100 + 0x40 * c.val + r) = if c.val < s.cfg.nCores then mailboxRead (mboxAt s c) r else 0 := by
  have hdiv : (0x100 + 0x40 * c.val + r - 0x100) / 0x40 = c.val := by omega
  have hmod : (0x100 + 0x40 * c.val + r - 0x100) % 0x40 = r := by omega
  have hcore : mailboxCore (0x100 + 0x40 * c.val + r) = c := by simp [mailboxCore, hdiv]
  rw [readReg, if_neg (by omega), if_neg (by omega), if_neg (by omega), if_neg (by omega), if_neg (by omega),
    if_neg (by omega), if_pos (by omega), hcore, hmod]
  simp [mailboxExists, hdiv]

/-- Offset `r` of `PMT[k]` (R36). -/
theorem readReg_mode (k : Fin 5) {r : Nat} (hr : r < 0x20) (s : State) :
    readReg s (0x300 + 0x20 * k.val + r) =
      if modeIndexOk s.cfg k.val = true then modeWordAt s.slp.pmt[k.val] (r / 4) else 0 := by
  have hdiv : (0x300 + 0x20 * k.val + r - 0x300) / 0x20 = k.val := by omega
  have hmod : (0x300 + 0x20 * k.val + r - 0x300) % 0x20 / 4 = r / 4 := by omega
  rw [readReg, if_neg (by omega), if_neg (by omega), if_neg (by omega), if_neg (by omega), if_neg (by omega),
    if_neg (by omega), if_neg (by omega), if_pos (by omega)]
  simp [hdiv, hmod, pmtExists]

/-- `BKP[e]` (R36). -/
theorem readReg_backup (e : Fin 3) (s : State) :
    readReg s (0x3A0 + 4 * e.val) = if bkpExists s.cfg e.val = true then s.slp.bkp[e.val] else 0 := by
  rw [readReg, if_neg (by omega), if_neg (by omega), if_neg (by omega), if_neg (by omega), if_neg (by omega),
    if_neg (by omega), if_neg (by omega), if_neg (by omega), if_pos (by omega)]
  simp

theorem readReg_beyond {off : Nat} (h : 0x3AC ≤ off) (s : State) : readReg s off = 0 := by
  rw [readReg, if_neg (by omega), if_neg (by omega), if_neg (by omega), if_neg (by omega), if_neg (by omega),
    if_neg (by omega), if_neg (by omega), if_neg (by omega), if_neg (by omega)]

/-! ### The words of each view -/

/-- The seven fields of a budget view, in the order of R35. -/
theorem budgetView_fields (b : SleepBudget) :
    (List.range 7).map (budgetView b) =
      [b.lpWait, b.hpWait, b.xtalStableWait, b.pllStableWait, b.modemWakeupWait, b.regdmaWait, b.totalGuardTimeUs] := rfl

theorem pllView_words {id : PllId} {s : State} (h : id.toNat < s.cfg.nPll) :
    pllView s id.toNat 0x4 = (pllAt s id).configuredFreqMhz ∧ pllView s id.toNat 0x8 = (pllAt s id).consumerCount := by
  simp [pllView, h]

/-- The fourth word of a PLL's views is reserved, and all four of a PLL the chip does not have (R35). -/
theorem pllView_reserved {s : State} {id r : Nat} (h : s.cfg.nPll ≤ id ∨ r = 0xC) : pllView s id r = 0 := by
  obtain habsent | rfl := h
  · exact if_neg (Nat.not_lt.2 habsent)
  · exact ite_self _

theorem mailboxRead_arg (m : Mailbox) {i : Nat} (h : i < 5) : mailboxRead m (0x04 + 4 * i) = m.arg[i] := by
  have hr : 0x04 ≤ 0x04 + 4 * i ∧ 0x04 + 4 * i ≤ 0x14 := by omega
  have hi : (0x04 + 4 * i - 0x04) / 4 = i := by omega
  rw [mailboxRead, if_neg (by omega), if_pos hr, hi]
  simp [h]

theorem mailboxRead_res (m : Mailbox) {i : Nat} (h : i < 5) : mailboxRead m (0x1C + 4 * i) = m.res[i] := by
  have hr : 0x1C ≤ 0x1C + 4 * i ∧ 0x1C + 4 * i ≤ 0x2C := by omega
  have hi : (0x1C + 4 * i - 0x1C) / 4 = i := by omega
  rw [mailboxRead, if_neg (by omega), if_neg (by omega), if_pos hr, hi]
  simp [h]

/-- `CMD` and what follows `RES` read 0 (R36). -/
theorem mailboxRead_reserved (m : Mailbox) {r : Nat} (h : r = 0 ∨ 0x30 ≤ r) : mailboxRead m r = 0 := by
  rw [mailboxRead, if_neg (by omega), if_neg (by omega), if_neg (by omega)]

/-- A mode entry has five words (R36). -/
theorem modeWordAt_beyond (p : ModeParams) {w : Nat} (h : 5 ≤ w) : modeWordAt p w = 0 := by
  obtain ⟨n, rfl⟩ := Nat.exists_eq_add_of_le' h
  rfl

/-- The five words of a mode entry, in the order of R36. -/
theorem modeWordAt_words (p : ModeParams) :
    (List.range 5).map (modeWordAt p) = [p.pwr, p.ckg, p.ana, p.pad, p.ret] := rfl

/-- The Modem entry is reserved on a chip without that mode, the other four of `PMT` are always there (R36). -/
theorem modeIndexOk_of_modem {cfg : Cfg} {k : Fin 5} (h : k.val = 1 → cfg.hasModemMode = true) :
    modeIndexOk cfg k.val = true := by
  simp only [modeIndexOk, Bool.and_eq_true, Bool.or_eq_true, decide_eq_true_eq]
  exact ⟨by omega, Decidable.or_iff_not_imp_left.2 fun h1 => h (not_not.1 h1)⟩

/-- Likewise the edge from Modem among the three of `BKP` (R36). -/
theorem bkpExists_of_modem {cfg : Cfg} {e : Fin 3} (h : e.val = 2 → cfg.hasModemMode = true) :
    bkpExists cfg e.val = true := by
  simp only [bkpExists, Bool.and_eq_true, Bool.or_eq_true, decide_eq_true_eq]
  exact ⟨by omega, Decidable.or_iff_not_imp_left.2 fun h2 => h (not_not.1 h2)⟩

/-- Registers in a row that read the entries of a vector read the whole of it. -/
theorem map_range_eq_toList {n : Nat} {f : Nat → Word} {xs : Vector Word n} (h : ∀ i (hi : i < n), f i = xs[i]) :
    (List.range n).map f = xs.toList :=
  List.ext_getElem (by simp) fun i hi _ => by simpa using h i (by simpa using hi)

/-! ### Ranges of registers -/

theorem readReg_args {c : Core} {s : State} (h : c.val < s.cfg.nCores) :
    (List.range 5).map (fun i => readReg s (0x104 + 0x40 * c.val + 4 * i)) = (mboxAt s c).arg.toList :=
  map_range_eq_toList fun i hi => by
    have hoff : 0x104 + 0x40 * c.val + 4 * i = 0x100 + 0x40 * c.val + (0x04 + 4 * i) := by omega
    rw [hoff, readReg_mailbox c (by omega), if_pos h, mailboxRead_arg _ hi]

theorem readReg_results {c : Core} {s : State} (h : c.val < s.cfg.nCores) :
    (List.range 5).map (fun i => readReg s (0x11C + 0x40 * c.val + 4 * i)) = resList s c :=
  map_range_eq_toList fun i hi => by
    have hoff : 0x11C + 0x40 * c.val + 4 * i = 0x100 + 0x40 * c.val + (0x1C + 4 * i) := by omega
    rw [hoff, readReg_mailbox c (by omega), if_pos h, mailboxRead_res _ hi]

theorem readReg_modeWord {k : Fin 5} {s : State} (h : modeIndexOk s.cfg k.val = true) {w : Nat} (hw : w < 5) :
    readReg s (0x300 + 0x20 * k.val + 4 * w) = modeWordAt s.slp.pmt[k.val] w := by
  rw [readReg_mode k (by omega), if_pos h, Nat.mul_div_cancel_left w (by omega)]

/-- The offsets that no register has, and `CMD` and the registers of what the chip does not have (R35, R36). -/
def ReservedOffset (cfg : Cfg) (off : Nat) : Prop :=
  off = 0x03C ∨ off = 0x05C ∨ off = 0x07C ∨ 0x3AC ≤ off ∨
    (∃ id r, off = 0x080 + 0x10 * id + r ∧ id < 8 ∧ r < 0x10 ∧ (cfg.nPll ≤ id ∨ r = 0xC)) ∨
    (∃ c r, off = 0x100 + 0x40 * c + r ∧ c < 8 ∧ r < 0x40 ∧ (cfg.nCores ≤ c ∨ r = 0 ∨ 0x30 ≤ r)) ∨
    (∃ k r, off = 0x300 + 0x20 * k + r ∧ k < 5 ∧ r < 0x20 ∧ (0x14 ≤ r ∨ k = 1 ∧ cfg.hasModemMode = false)) ∨
    (off = 0x3A8 ∧ cfg.hasModemMode = false)

theorem readReg_reserved {s : State} {off : Nat} (h : ReservedOffset s.cfg off) : readReg s off = 0 := by
  obtain rfl | rfl | rfl | hbeyond | ⟨id, r, rfl, hid, hr, hclosed⟩ | ⟨c, r, rfl, hc, hr, hclosed⟩ |
    ⟨k, r, rfl, hk, hr, hclosed⟩ | ⟨rfl, hmodem⟩ := h
  · rfl
  · rfl
  · rfl
  · exact readReg_beyond hbeyond s
  · rw [readReg_pll hid hr, pllView_reserved hclosed]
  · rw [readReg_mailbox ⟨c, hc⟩ hr]
    obtain hcore | hread := hclosed
    · exact if_neg (Nat.not_lt.2 hcore)
    · rw [mailboxRead_reserved _ hread, ite_self]
  · rw [readReg_mode ⟨k, hk⟩ hr]
    obtain hword | ⟨rfl, hmodem⟩ := hclosed
    · rw [modeWordAt_beyond _ (by omega), ite_self]
    · simp [modeIndexOk, hmodem]
  · exact (readReg_backup 2 s).trans (by simp [bkpExists, hmodem])

/-- Settles O49: the read and the write of the window are `act_hostRead_inside` and `act_hostWrite_inside`; each register by the
view behind its offset, the reserved ones by `readReg_reserved`. -/
theorem hostReadsHaveNoEffect : Obligations.HostReadsHaveNoEffect := by
  refine ⟨fun addr bytes v s hin => ⟨⟨_, act_hostRead_inside hin bytes, rfl, fun hb ha => ?_, fun hbad => ?_⟩, fun hbad => ?_⟩,
    fun s => ⟨⟨rfl, rfl, rfl, rfl, rfl, rfl, rfl, rfl, rfl⟩, fun base b hb => ?_, fun id h8 hid => ?_,
      fun c hc => ⟨readReg_args hc, readReg_results hc⟩, fun k p hk hp => ?_, fun e he => ?_,
      fun off _ _ hres => readReg_reserved hres⟩⟩
  · exact if_pos ((accessAdmitted_iff addr bytes).2 ⟨hb, ha⟩)
  · exact if_neg (mt (accessAdmitted_iff addr bytes).1 hbad)
  · rw [act_hostWrite_inside hin, if_neg (mt (accessAdmitted_iff addr bytes).1 hbad)]
  · rw [← budgetView_fields]
    refine List.map_congr_left fun j hj => ?_
    obtain ⟨rfl, rfl⟩ | ⟨rfl, rfl⟩ := hb
    · exact readReg_budget (List.mem_range.1 hj) s
    · exact readReg_hwwait (List.mem_range.1 hj) s
  · rw [show 0x084 + 0x10 * id.toNat = 0x080 + 0x10 * id.toNat + 0x4 by omega,
      show 0x088 + 0x10 * id.toNat = 0x080 + 0x10 * id.toNat + 0x8 by omega,
      readReg_pll h8 (by omega), readReg_pll h8 (by omega)]
    exact pllView_words hid
  · rw [hp, ← modeWordAt_words]
    exact List.map_congr_left fun w hw => readReg_modeWord (modeIndexOk_of_modem hk) (List.mem_range.1 hw)
  · rw [readReg_backup, if_pos (bkpExists_of_modem he)]

end Sys2Proof.Machine
end

section
/-! Decoding and encoding (30_encoding.md R60 to R62, R68): a command word is its opcode and its immediate; a word that matches
a row of the opcode table decodes to that row's op, and a word that decodes is the one the encoder writes. -/

namespace Sys2Proof

/-! ### The fields of a command word -/

@[simp] theorem opcodeOf_commandWord (op : Byte) (imm : BitVec 24) : opcodeOf (commandWord op imm) = op :=
  BitVec.extractLsb'_append_eq_left

@[simp] theorem immOf_commandWord (op : Byte) (imm : BitVec 24) : immOf (commandWord op imm) = imm :=
  BitVec.extractLsb'_append_eq_right

theorem commandWord_of_fields {cmd : Word} {op : Byte} {imm : BitVec 24} (hop : (opcodeOf cmd).toNat = op.toNat)
    (himm : immOf cmd = imm) : commandWord op imm = cmd := by
  have hsplit : commandWord (opcodeOf cmd) (immOf cmd) = cmd.extractLsb' 0 32 :=
    BitVec.extractLsb'_append_extractLsb'_eq_extractLsb' rfl
  rw [← BitVec.eq_of_toNat_eq hop, ← himm, hsplit, BitVec.extractLsb'_eq_self]

/-- The bits of an immediate from bit `n` on, as bits of the command word (R60). -/
theorem extractLsb'_immOf {n len : Nat} (h : n + len ≤ 24) (cmd : Word) :
    (immOf cmd).extractLsb' n len = cmd.extractLsb' n len := by
  ext i hi
  simp only [immOf, BitVec.getElem_extractLsb', BitVec.getLsbD_extractLsb']
  simp [show n + i < 24 by omega]

/-! ### The immediates of formats I and P, S and E, and M -/

@[simp] theorem extractLsb'_immId (id : PllId) : (immId id).extractLsb' 0 8 = id := BitVec.extractLsb'_append_eq_right

@[simp] theorem extractLsb'_immMode (k : BitVec 3) : (immMode k).extractLsb' 0 3 = k := BitVec.extractLsb'_append_eq_right

@[simp] theorem getElem_immDeep (deep : Bool) : (immDeep deep)[0] = deep := by cases deep <;> rfl

/-- Two immediates with the same `n` bits of field and no reserved bit set are the same. -/
theorem imm_eq_of_field {n len : Nat} (hlen : n + len = 24) {v w : BitVec 24} (hv : v.extractLsb' n len = 0)
    (hw : w.extractLsb' n len = 0) (hfield : v.extractLsb' 0 n = w.extractLsb' 0 n) : v = w := by
  have hreserved := hv.trans hw.symm
  ext i hi
  obtain hlow | hhigh := Nat.lt_or_ge i n
  · have hbit := congrArg (·.getLsbD i) hfield
    simpa [hlow, hi] using hbit
  · have hbit := congrArg (·.getLsbD (i - n)) hreserved
    simpa [show i - n < len by omega, Nat.add_sub_cancel' hhigh, hi] using hbit

theorem immId_of_reserved {imm : BitVec 24} (h : imm.extractLsb' 8 16 = 0) : immId (imm.extractLsb' 0 8) = imm :=
  imm_eq_of_field rfl BitVec.extractLsb'_append_eq_left h (extractLsb'_immId _)

theorem immMode_of_reserved {imm : BitVec 24} (h : imm.extractLsb' 3 21 = 0) : immMode (imm.extractLsb' 0 3) = imm :=
  imm_eq_of_field rfl BitVec.extractLsb'_append_eq_left h (extractLsb'_immMode _)

theorem immDeep_of_reserved {imm : BitVec 24} (h : imm.extractLsb' 1 23 = 0) : immDeep (imm.getLsbD 0) = imm := by
  refine imm_eq_of_field rfl (by cases imm.getLsbD 0 <;> rfl) h ?_
  ext i hi
  simp [show i = 0 by omega]

/-! ### A word that decodes is the encoder's -/

theorem encode_of_decodePlain {cmd : Word} {op : Byte} {i j : Instr} (henc : (encode i).cmd = commandWord op 0)
    (hop : (opcodeOf cmd).toNat = op.toNat) (h : decodePlain cmd i = .ok j) : (encode j).cmd = cmd := by
  unfold decodePlain at h
  split at h <;> cases h
  next himm => exact henc.trans (commandWord_of_fields hop himm)

theorem encode_of_decodeId {cmd : Word} {op : Byte} {f : PllId → Instr} {j : Instr}
    (henc : ∀ id, (encode (f id)).cmd = commandWord op (immId id))
    (hop : (opcodeOf cmd).toNat = op.toNat) (h : decodeId cmd f = .ok j) : (encode j).cmd = cmd := by
  unfold decodeId at h
  split at h <;> cases h
  next hres => exact (henc _).trans (commandWord_of_fields hop (immId_of_reserved hres).symm)

theorem encode_of_decodeDeep {cmd : Word} {op : Byte} {f : Bool → Instr} {j : Instr}
    (henc : ∀ deep, (encode (f deep)).cmd = commandWord op (immDeep deep))
    (hop : (opcodeOf cmd).toNat = op.toNat) (h : decodeDeep cmd f = .ok j) : (encode j).cmd = cmd := by
  unfold decodeDeep at h
  split at h <;> cases h
  next hres => exact (henc _).trans (commandWord_of_fields hop (immDeep_of_reserved hres).symm)

theorem encode_of_decodeMode {cmd : Word} {op : Byte} {f : BitVec 3 → Instr} {j : Instr}
    (henc : ∀ k, (encode (f k)).cmd = commandWord op (immMode k))
    (hop : (opcodeOf cmd).toNat = op.toNat) (h : decodeMode cmd f = .ok j) : (encode j).cmd = cmd := by
  unfold decodeMode at h
  split at h <;> cases h
  next hres => exact (henc _).trans (commandWord_of_fields hop (immMode_of_reserved hres).symm)

theorem encode_of_decode {cmd : Word} {a : Regs5} {i : Instr} (h : decode cmd a = .ok i) : (encode i).cmd = cmd := by
  unfold decode at h
  split at h
  next hop => exact encode_of_decodePlain (op := 0x01) rfl hop h
  next hop => exact encode_of_decodePlain (op := 0x02) rfl hop h
  next hop => exact encode_of_decodeId (op := 0x03) (fun _ => rfl) hop h
  next hop => exact encode_of_decodeId (op := 0x04) (fun _ => rfl) hop h
  next hop => exact encode_of_decodeDeep (op := 0x05) (fun _ => rfl) hop h
  next hop => exact encode_of_decodeMode (op := 0x06) (fun _ => rfl) hop h
  next hop => exact encode_of_decodePlain (op := 0x10) rfl hop h
  next hop => exact encode_of_decodePlain (op := 0x11) rfl hop h
  next hop => exact encode_of_decodeId (op := 0x20) (fun _ => rfl) hop h
  next hop => exact encode_of_decodeId (op := 0x21) (fun _ => rfl) hop h
  next hop => exact encode_of_decodeId (op := 0x22) (fun _ => rfl) hop h
  next hop => exact encode_of_decodePlain (op := 0x30) rfl hop h
  next hop => exact encode_of_decodePlain (op := 0x31) rfl hop h
  next hop => exact encode_of_decodeDeep (op := 0x32) (fun _ => rfl) hop h
  next hop => exact encode_of_decodePlain (op := 0x33) rfl hop h
  next hop => exact encode_of_decodePlain (op := 0x34) rfl hop h
  next => cases h

/-! ### A word that matches a row decodes to the row's op -/

/-- The op of `i` with the operands its format reads from an immediate and the `ARG` registers (R61). -/
def Instr.withOperands (imm : BitVec 24) (a : Regs5) : Instr → Instr
  | .setCpuFreq _ => .setCpuFreq a[0]
  | .getCpuFreq => .getCpuFreq
  | .pllAddConsumer _ => .pllAddConsumer (imm.extractLsb' 0 8)
  | .pllRemoveConsumer _ => .pllRemoveConsumer (imm.extractLsb' 0 8)
  | .enterSleep _ _ _ _ _ _ => .enterSleep (imm.getLsbD 0) a[0] a[1] a[2] a[3] a[4]
  | .cfgPwrModeDefaults _ => .cfgPwrModeDefaults (imm.extractLsb' 0 3)
  | .resolve _ => .resolve a[0]
  | .setConfig _ _ _ _ => .setConfig a[0] a[1] a[2] a[3]
  | .pllEnable _ => .pllEnable (imm.extractLsb' 0 8)
  | .pllCfgCal _ _ _ => .pllCfgCal (imm.extractLsb' 0 8) a[0] a[1]
  | .pllDisable _ => .pllDisable (imm.extractLsb' 0 8)
  | .buildParams _ _ _ => .buildParams a[0] a[1] a[2]
  | .program => .program
  | .enter _ _ _ => .enter (imm.getLsbD 0) a[0] a[1]
  | .regdmaEn => .regdmaEn
  | .regdmaDis => .regdmaDis

/-- `cmd` has the bits of the table row of `i` under the row's mask (R62). -/
def RowMatch (cmd : Word) (i : Instr) : Prop := cmd &&& (opcodeRow i).mask = (opcodeRow i).bits

theorem opcodeRow_mem_opcodeTable (i : Instr) : opcodeRow i ∈ opcodeTable := by
  cases i <;> simp [opcodeRow, opcodeTable]

/-- Where a mask is all ones, a masked match is an equality. -/
theorem extractLsb'_of_masked {w mask v : Word} {n len : Nat} (h : w &&& mask = v)
    (hmask : mask.extractLsb' n len = BitVec.allOnes len) : w.extractLsb' n len = v.extractLsb' n len := by
  rw [← h, BitVec.extractLsb'_and, hmask, BitVec.and_allOnes]

/-- Every row's mask covers the opcode (R62). -/
theorem RowMatch.opcodeOf_eq {cmd : Word} {i : Instr} (h : RowMatch cmd i) :
    opcodeOf cmd = opcodeOf (opcodeRow i).bits := by
  have hmask : ∀ r ∈ opcodeTable, r.mask.extractLsb' 24 8 = BitVec.allOnes 8 := by decide
  exact extractLsb'_of_masked h (hmask _ (opcodeRow_mem_opcodeTable i))

/-- No row asks for a bit of the immediate: those its mask covers are 0 (R62). -/
theorem RowMatch.reserved_eq_zero {cmd : Word} {i : Instr} (h : RowMatch cmd i) {n len : Nat} (hlen : n + len ≤ 24)
    (hmask : (opcodeRow i).mask.extractLsb' n len = BitVec.allOnes len) : (immOf cmd).extractLsb' n len = 0 := by
  have hbits : ∀ r ∈ opcodeTable, immOf r.bits = 0 := by decide
  have hrow : (immOf (opcodeRow i).bits).extractLsb' n len = 0 := by
    rw [hbits _ (opcodeRow_mem_opcodeTable i)]; simp
  rw [← hrow, extractLsb'_immOf hlen, extractLsb'_immOf hlen]
  exact extractLsb'_of_masked h hmask

/-- By format: the opcode selects the row's op, and the mask covers the reserved bits the format's decoder checks. -/
theorem RowMatch.decode_eq {cmd : Word} {i : Instr} (h : RowMatch cmd i) (a : Regs5) :
    decode cmd a = .ok (i.withOperands (immOf cmd) a) := by
  have hop := h.opcodeOf_eq
  cases i with
  | pllAddConsumer | pllRemoveConsumer | pllEnable | pllCfgCal | pllDisable =>
    have hmask : (0xFFFFFF00 : Word).extractLsb' 8 16 = BitVec.allOnes 16 := by decide
    have hres : (immOf cmd).extractLsb' 8 16 = 0 := h.reserved_eq_zero (by decide) hmask
    simp only [decode, hop]
    simp [opcodeOf, opcodeRow, decodeId, hres, Instr.withOperands]
  | enterSleep | enter =>
    have hmask : (0xFFFFFFFE : Word).extractLsb' 1 23 = BitVec.allOnes 23 := by decide
    have hres : (immOf cmd).extractLsb' 1 23 = 0 := h.reserved_eq_zero (by decide) hmask
    simp only [decode, hop]
    simp [opcodeOf, opcodeRow, decodeDeep, hres, Instr.withOperands]
  | cfgPwrModeDefaults =>
    have hmask : (0xFFFFFFF8 : Word).extractLsb' 3 21 = BitVec.allOnes 21 := by decide
    have hres : (immOf cmd).extractLsb' 3 21 = 0 := h.reserved_eq_zero (by decide) hmask
    simp only [decode, hop]
    simp [opcodeOf, opcodeRow, decodeMode, hres, Instr.withOperands]
  | _ =>
    have hmask : (0xFFFFFFFF : Word).extractLsb' 0 24 = BitVec.allOnes 24 := by decide
    have himm : immOf cmd = 0 := BitVec.extractLsb'_eq_self.symm.trans (h.reserved_eq_zero (by decide) hmask)
    simp only [decode, hop]
    simp [opcodeOf, opcodeRow, decodePlain, himm, Instr.withOperands]

/-- The `TableMatch` laws of all sixteen ops. -/
theorem rowMatch_encode (i : Instr) : RowMatch (encode i).cmd i := by
  cases i with
  | setCpuFreq f => exact Laws.TableMatch.setCpuFreq f
  | getCpuFreq => exact Laws.TableMatch.getCpuFreq
  | pllAddConsumer id => exact Laws.TableMatch.pllAddConsumer id
  | pllRemoveConsumer id => exact Laws.TableMatch.pllRemoveConsumer id
  | enterSleep deep wk rj mf pd adj => exact Laws.TableMatch.enterSleep deep wk rj mf pd adj
  | cfgPwrModeDefaults k => exact Laws.TableMatch.cfgPwrModeDefaults k
  | resolve f => exact Laws.TableMatch.resolve f
  | setConfig src sf d f => exact Laws.TableMatch.setConfig src sf d f
  | pllEnable id => exact Laws.TableMatch.pllEnable id
  | pllCfgCal id x g => exact Laws.TableMatch.pllCfgCal id x g
  | pllDisable id => exact Laws.TableMatch.pllDisable id
  | buildParams mf pd adj => exact Laws.TableMatch.buildParams mf pd adj
  | program => exact Laws.TableMatch.program
  | enter deep wk rj => exact Laws.TableMatch.enter deep wk rj
  | regdmaEn => exact Laws.TableMatch.regdmaEn
  | regdmaDis => exact Laws.TableMatch.regdmaDis

/-- An op's own words carry its operands. -/
theorem withOperands_encode (i : Instr) : i.withOperands (immOf (encode i).cmd) (encode i).arg = i := by
  cases i <;> simp [encode, Instr.withOperands]

theorem decode_encode (i : Instr) : decode (encode i).cmd (encode i).arg = .ok i := by
  rw [(rowMatch_encode i).decode_eq, withOperands_encode]

/-- Settles O1: the words of an op match its row and so decode to it (`decode_encode`); a word that decodes has the opcode and
the immediate the encoder writes (`encode_of_decode`). -/
theorem decodeAndEncodeAgree : Obligations.DecodeAndEncodeAgree :=
  ⟨decode_encode, fun _ _ _ h => encode_of_decode h⟩

end Sys2Proof
end

section
/-! Which command words are legal (30_encoding.md R62, R68), the words of each format written out, and the acceptance of an
illegal word. -/

namespace Sys2Proof

/-- Settles O3: each legal word is the encoder's for its op; the two illegal ones are evaluated. -/
theorem sampleWordsDecode : Obligations.SampleWordsDecode :=
  ⟨decode_encode .getCpuFreq, decode_encode (.pllAddConsumer 7), decode_encode (.setCpuFreq 160),
    decode_encode (.setConfig 1 480 3 160), decode_encode (.pllCfgCal 2 40 480), decode_encode (.buildParams 0x12 1 5),
    decode_encode (.enter true 4 1), decode_encode (.enterSleep false 4 1 0x12 1 9), decode_encode (.cfgPwrModeDefaults 4),
    by decide, by decide⟩

/-- One op of each row, in the order of the table. -/
def oneOpPerRow : List Instr :=
  [.setCpuFreq 0, .getCpuFreq, .pllAddConsumer 0, .pllRemoveConsumer 0, .enterSleep false 0 0 0 0 0, .cfgPwrModeDefaults 0,
    .resolve 0, .setConfig 0 0 0 0, .pllEnable 0, .pllCfgCal 0 0 0, .pllDisable 0, .buildParams 0 0 0, .program,
    .enter false 0 0, .regdmaEn, .regdmaDis]

theorem opcodeTable_eq_map : opcodeTable = oneOpPerRow.map opcodeRow := rfl

/-- The rows of the table are the rows of the ops. -/
theorem mem_opcodeTable_iff (r : OpcodeRow) : r ∈ opcodeTable ↔ ∃ i, opcodeRow i = r := by
  constructor
  · intro h
    rw [opcodeTable_eq_map] at h
    obtain ⟨i, -, hi⟩ := List.mem_map.1 h
    exact ⟨i, hi⟩
  · rintro ⟨i, rfl⟩
    exact opcodeRow_mem_opcodeTable i

/-- A word is legal exactly when it matches the row of some op. -/
theorem decode_isOk_iff (cmd : Word) (a : Regs5) : (∃ i, decode cmd a = .ok i) ↔ ∃ i, RowMatch cmd i := by
  constructor
  · rintro ⟨i, h⟩
    exact ⟨i, encode_of_decode h ▸ rowMatch_encode i⟩
  · rintro ⟨i, h⟩
    exact ⟨_, h.decode_eq a⟩

theorem decode_isError_iff (cmd : Word) (a : Regs5) :
    (∃ e, decode cmd a = .error e) ↔ ∀ r ∈ opcodeTable, cmd &&& r.mask ≠ r.bits := by
  have hillegal : (∃ e, decode cmd a = .error e) ↔ ¬∃ i, decode cmd a = .ok i := by
    cases decode cmd a <;> simp
  rw [hillegal, decode_isOk_iff]
  constructor
  · intro h r hr hmatch
    obtain ⟨i, rfl⟩ := (mem_opcodeTable_iff r).1 hr
    exact h ⟨i, hmatch⟩
  · rintro h ⟨i, hmatch⟩
    exact h _ (opcodeRow_mem_opcodeTable i) hmatch

namespace Machine

/-- The end of an op does to its core what a refusal may: its `STATUS` changes, nothing else (60_exceptions.md R155). -/
theorem endOp_refusedWith (c : Core) (k : StatusCode) (s : State) : RefusedWith c k s (endOp c k s) := by
  refine ⟨rfl, fun d hd => mboxAt_endOp_ne hd k s, ?_, ?_⟩
  · simp [EndedWith]
  · simp

/-- An illegal word ends before anything else is looked at, HALT included (30_encoding.md R72). -/
theorem act_accept_illegal {s : State} {c : Core} {e : IllegalWord} (hc : c.val < s.cfg.nCores)
    (hpending : (mboxAt s c).pending = true) (hword : decode (mboxAt s c).cmd (mboxAt s c).arg = .error e) :
    act (.accept c) s = .next (endOp c .illegalCmd (setEnv { s.env with picked := c } s)) := by
  simp [act, acceptCommand, hc, hpending, hword]

/-- Settles O2: legality is `decode_isError_iff`, and the acceptance of an illegal word is one `endOp`. -/
theorem illegalWordRefused : Obligations.IllegalWordRefused := by
  refine ⟨decode_isError_iff, fun a => ⟨?_, ?_⟩, fun s c e hc hpending hword => ?_⟩
  · exact (decode_isError_iff 0 a).2 (by decide)
  · exact (decode_isError_iff 0xFFFFFFFF a).2 (by decide)
  · exact ⟨_, act_accept_illegal hc hpending hword, endOp_refusedWith c .illegalCmd _⟩

end Machine

end Sys2Proof
end

section
/-! Acceptance (30_encoding.md R72; 60_exceptions.md R155, R156): what `exec` does in HALT, while an op runs, and when a sequenced
op can start. -/

namespace Sys2Proof.Machine

/-! ### The two kinds of ops -/

theorem immediate_halted {s : State} (h : s.fault.halted = true) (checks : List (Bool × StatusCode)) (body : State → State) :
    immediate checks body s = .next (endOp s.env.picked .halted s) := by
  simp [immediate, h]

theorem sequenced_halted {s : State} (h : s.fault.halted = true) (checks : List (Bool × StatusCode)) (prep : State → State)
    (script : List Micro) : sequenced checks prep script s = .next (endOp s.env.picked .halted s) := by
  simp [sequenced, h]

theorem sequenced_busy {s : State} (hrun : s.fault.halted = false) (hbusy : s.seq.busy = true)
    (checks : List (Bool × StatusCode)) (prep : State → State) (script : List Micro) :
    sequenced checks prep script s = .next s := by
  simp [sequenced, hrun, hbusy]

theorem sequenced_refused {s : State} (h : Ready s) {checks : List (Bool × StatusCode)} {k : StatusCode}
    (hk : firstFailing checks = some k) (prep : State → State) (script : List Micro) :
    sequenced checks prep script s = .next (endOp s.env.picked k s) := by
  obtain ⟨hrun, hidle⟩ := h
  simp [sequenced, hrun, hidle, hk]

theorem sequenced_started {s : State} (h : Ready s) {checks : List (Bool × StatusCode)}
    (hpass : firstFailing checks = none) (prep : State → State) (script : List Micro) :
    sequenced checks prep script s = .next (start script (prep s)) := by
  obtain ⟨hrun, hidle⟩ := h
  simp [sequenced, hrun, hidle, hpass]

/-- The code of a refusal is that of one of the checks. -/
theorem mem_of_firstFailing {checks : List (Bool × StatusCode)} {k : StatusCode} (h : firstFailing checks = some k) :
    k ∈ checks.map Prod.snd := by
  induction checks with
  | nil => cases h
  | cons e rest ih =>
    obtain ⟨b, k'⟩ := e
    rw [firstFailing_cons] at h
    cases b with
    | true => exact List.mem_cons_of_mem _ (ih h)
    | false => cases h; exact List.mem_cons_self

theorem firstFailing_isSome {α : Type} {x : Option α} {k : StatusCode} (h : firstFailing [(x.isSome, k)] = none) :
    ∃ v, x = some v := by
  cases x with
  | none => cases h
  | some v => exact ⟨v, rfl⟩

/-! ### The shape of a sequenced op -/

/-- The acceptance effects: none, the discard of the built sleep parameters (42_sleep.md R121), or ENTER_SLEEP's (R135). -/
def AcceptanceEffect (prep : State → State) : Prop := prep = id ∨ prep = discardParams ∨ prep = saveConfig

/-- The script begins with a micro-step of its own, so the op still runs after its acceptance. -/
def KeepsRunning (script : List Micro) : Prop :=
  ∃ m rest, script = m :: rest ∧ m ≠ .setProgrammed ∧ ∀ e, m ≠ .finish e

/-- How a sequenced op is accepted in `s`: no check of it refuses with `OK`, and where all pass its script runs on or is that of
a REGDMA toggle with nothing to do (42_sleep.md R133, R134). -/
def SequencedAs (i : Instr) (s : State) (checks : List (Bool × StatusCode)) (prep : State → State) (script : List Micro) :
    Prop :=
  exec i s = sequenced checks prep script s ∧ StatusCode.ok ∉ checks.map Prod.snd ∧ AcceptanceEffect prep ∧
    (firstFailing checks = none → KeepsRunning script ∨
      (i = .regdmaEn ∨ i = .regdmaDis) ∧ prep = id ∧ script = [.finish .plain])

theorem keepsRunning_cons {m : Micro} (rest : List Micro) (h1 : m ≠ .setProgrammed) (h2 : ∀ e, m ≠ .finish e) :
    KeepsRunning (m :: rest) := ⟨m, rest, rfl, h1, h2⟩

theorem exec_sequencedAs {i : Instr} (h : isSequenced i = true) (s : State) :
    ∃ checks prep script, SequencedAs i s checks prep script := by
  cases i with
  | setCpuFreq f =>
    refine ⟨_, _, _, rfl, by simp, .inr (.inl rfl), fun hpass => .inl ?_⟩
    obtain ⟨k, hk⟩ := firstFailing_isSome hpass
    simp only [hk]
    exact keepsRunning_cons _ (by simp) (by simp)
  | setConfig a b c d =>
    refine ⟨_, _, _, rfl, by simp, .inr (.inl rfl), fun hpass => .inl ?_⟩
    obtain ⟨k, hk⟩ := firstFailing_isSome hpass
    simp only [hk]
    exact keepsRunning_cons _ (by simp) (by simp)
  | enterSleep =>
    exact ⟨_, _, _, rfl, by simp, .inr (.inr rfl), fun _ => .inl (keepsRunning_cons _ (by simp) (by simp))⟩
  | regdmaEn =>
    refine ⟨[], id, _, rfl, by simp, .inl rfl, fun _ => ?_⟩
    cases s.slp.regdmaEnabled with
    | true => exact .inr ⟨.inl rfl, rfl, rfl⟩
    | false => exact .inl (keepsRunning_cons _ (by simp) (by simp))
  | regdmaDis =>
    refine ⟨[], id, _, rfl, by simp, .inl rfl, fun _ => ?_⟩
    cases s.slp.regdmaEnabled with
    | true => exact .inl (keepsRunning_cons _ (by simp) (by simp))
    | false => exact .inr ⟨.inr rfl, rfl, rfl⟩
  | pllEnable | pllCfgCal | pllDisable | buildParams | program | enter =>
    exact ⟨_, _, _, rfl, by simp, .inl rfl, fun _ => .inl (keepsRunning_cons _ (by simp) (by simp))⟩
  | getCpuFreq | pllAddConsumer | pllRemoveConsumer | cfgPwrModeDefaults | resolve => cases h

theorem exec_immediate {i : Instr} (h : isSequenced i = false) (s : State) :
    ∃ checks body, exec i s = immediate checks body s := by
  cases i with
  | getCpuFreq => exact ⟨_, _, show execGetCpuFreq s = _ from rfl⟩
  | pllAddConsumer id => exact ⟨_, _, show execPllAddConsumer id s = _ from rfl⟩
  | pllRemoveConsumer id => exact ⟨_, _, show execPllRemoveConsumer id s = _ from rfl⟩
  | cfgPwrModeDefaults k => exact ⟨_, _, show execCfgPwrModeDefaults k s = _ from rfl⟩
  | resolve f => exact ⟨_, _, show execResolve f s = _ from rfl⟩
  | _ => cases h

/-! ### In HALT, and while an op runs -/

theorem exec_halted (i : Instr) {s : State} (h : s.fault.halted = true) :
    exec i s = .next (endOp s.env.picked .halted s) := by
  cases hi : isSequenced i with
  | true =>
    obtain ⟨checks, prep, script, hexec, -⟩ := exec_sequencedAs hi s
    rw [hexec, sequenced_halted h]
  | false =>
    obtain ⟨checks, body, hexec⟩ := exec_immediate hi s
    rw [hexec, immediate_halted h]

/-- Settles O5: in HALT every op is one `endOp` with `HALTED`, and a sequenced op waits while another runs. -/
theorem haltRefusesAndBusyWaits : Obligations.HaltRefusesAndBusyWaits := by
  refine ⟨fun i s h => ⟨_, exec_halted i h, endOp_refusedWith _ _ s⟩, fun i s hi hrun hbusy => ?_⟩
  obtain ⟨checks, prep, script, hexec, -⟩ := exec_sequencedAs hi s
  rw [hexec, sequenced_busy hrun hbusy]

/-! ### The start of a sequenced op -/

theorem discardParams_eq (s : State) :
    s.slp.state = .paramsBuilt ∧ discardParams s = setSlp { s.slp with state := .idle, programmed := false } s ∨
      discardParams s = s := by
  unfold discardParams
  split
  next hbuilt => exact .inl ⟨hbuilt, rfl⟩
  next => exact .inr rfl

/-- What an acceptance effect can do: nothing but to sleep state, `programmed` and the saved configuration, and to the first two
only the discard of built parameters (42_sleep.md R121). -/
theorem AcceptanceEffect.frame {prep : State → State} (h : AcceptanceEffect prep) (s : State) :
    ∃ state programmed savedCfg,
      prep s = { s with slp := { s.slp with state := state, programmed := programmed, savedCfg := savedCfg } } ∧
        (state = s.slp.state ∧ programmed = s.slp.programmed ∨
          s.slp.state = .paramsBuilt ∧ state = .idle ∧ programmed = false) := by
  obtain rfl | rfl | rfl := h
  · exact ⟨_, _, _, rfl, .inl ⟨rfl, rfl⟩⟩
  · obtain ⟨hbuilt, hdiscard⟩ | hsame := discardParams_eq s
    · exact ⟨_, _, _, hdiscard, .inr ⟨hbuilt, rfl, rfl⟩⟩
    · exact ⟨_, _, _, hsame, .inl ⟨rfl, rfl⟩⟩
  · unfold saveConfig
    obtain ⟨hbuilt, hdiscard⟩ | hsame := discardParams_eq s
    · rw [hdiscard]; exact ⟨_, _, _, rfl, .inr ⟨hbuilt, rfl, rfl⟩⟩
    · rw [hsame]; exact ⟨_, _, _, rfl, .inl ⟨rfl, rfl⟩⟩

/-- The start of a script that runs on touches the issuer's mailbox and the sequencing only. -/
theorem start_of_keepsRunning {script : List Micro} (h : KeepsRunning script) (s : State) :
    start script s =
      setSeq { busy := true, owner := s.env.picked, script := script, result := none }
        (setMbox s.env.picked { mboxAt s s.env.picked with pending := false, running := true } s) := by
  obtain ⟨m, rest, rfl, h1, h2⟩ := h
  rw [start, advance_cons h1 h2]
  rfl

/-- A script with nothing but the end of the op: the op has run and ended in its acceptance (log 6). -/
theorem start_finish_plain (s : State) :
    SameButSequencing s (start [.finish .plain] s) ∧ Released s.env.picked (start [.finish .plain] s) ∧
      OpEndedPlain s.env.picked .ok s (start [.finish .plain] s) := by
  refine ⟨rfl, rfl, ⟨fun d hd => ?_, ?_⟩, ?_⟩
  · simp [start, finishOp, setResults, mboxAt_endOp_ne hd, mboxAt_setMbox_ne hd]
  · simp [start, finishOp, setResults, EndedWith]
  · simp [start, finishOp, setResults]

/-- Settles O7: a failing check is a refusal, and where all pass the op starts from the state its acceptance effect leaves. -/
theorem sequencedAcceptanceFrame : Obligations.SequencedAcceptanceFrame := by
  intro i s hi hready
  obtain ⟨checks, prep, script, hexec, hcodes, hprep, hscript⟩ := exec_sequencedAs hi s
  cases hpass : firstFailing checks with
  | some k =>
    refine ⟨_, hexec.trans (sequenced_refused hready hpass prep script), .inl ⟨k, ?_, endOp_refusedWith _ k s⟩⟩
    rintro rfl
    exact hcodes (mem_of_firstFailing hpass)
  | none =>
    refine ⟨_, hexec.trans (sequenced_started hready hpass prep script), .inr ?_⟩
    obtain hruns | ⟨htoggle, rfl, rfl⟩ := hscript hpass
    · obtain ⟨state, programmed, savedCfg, hframe, hdiscard⟩ := hprep.frame s
      rw [hframe, start_of_keepsRunning hruns]
      exact .inl ⟨⟨rfl, rfl, rfl, fun d hd => mboxAt_setMbox_ne hd _ s, mboxAt_setMbox_self _ _ s⟩, rfl, hdiscard⟩
    · exact .inr ⟨htoggle, start_finish_plain s⟩

end Sys2Proof.Machine
end

section
/-! How a script goes on (10_state.md R12): what the resolution of its head keeps, what a micro-step leaves of it, and what a
micro-step does to the applied configuration, the hardware fields and the PLLs. -/

namespace Sys2Proof.Machine

/-! ### The script of the running op -/

/-- What every replacement of a control line keeps, the resolution of the head keeps. -/
theorem resolveHead_keeps {P : List Micro → Prop} {s : State}
    (hexpand : ∀ m l rest, expand s m = some l → P (m :: rest) → P (l ++ rest)) (n : Nat) {l : List Micro} (hl : P l) :
    P (resolveHead n s l) := by
  induction n generalizing l with
  | zero => exact hl
  | succ n ih =>
    cases l with
    | nil => exact hl
    | cons m rest =>
      rw [resolveHead]
      split
      next l' he => exact ih (hexpand m l' rest he hl)
      next => exact hl

/-- The items after which the script may stand where it stood: the polls, and the lines that are not micro-steps (log 6). -/
def waits : Micro → Bool
  | .calPoll _ _ | .pollStatus | .pollAux | .setProgrammed | .finish _ => true
  | _ => false

theorem raiseFatal_owner_ended (c : Core) (k : StatusCode) (info : BitVec 16) (s : State) :
    (raiseFatal c true k info s).fault.halted = true ∧ (raiseFatal c true k info s).seq.script = [] := by
  refine ⟨?_, ?_⟩
  · rw [raiseFatal_fault]; split <;> simp_all
  · obtain ⟨-, hq⟩ | hnil := raiseFatal_script c true k info s
    · cases hq
    · exact hnil

theorem calTimeout_ended (id : PllId) (o : Option Word) (s : State) :
    (calTimeout id o s).fault.halted = true ∧ (calTimeout id o s).seq.script = [] :=
  raiseFatal_owner_ended _ _ _ _

/-- How a micro-step goes on: with the script after it, with the script it stands in where it waits, or not at all. -/
theorem runMicro_goesOn {s : State} {m : Micro} (hm : expand s m = none) (rest : List Micro) (a : Bool) :
    (∃ l u, runMicro m rest a s = advance l u ∧ (l = rest ∨ waits m = true ∧ l = m :: rest)) ∨
      (runMicro m rest a s).fault.halted = true ∧ (runMicro m rest a s).seq.script = [] := by
  cases m with
  | setConfig | restoreSaved | bringUp | apply | program => cases hm
  | pllDisable id =>
    dsimp only [runMicro, doPllDisable]
    split
    · exact .inl ⟨_, _, rfl, .inl rfl⟩
    · exact .inr (raiseFatal_owner_ended _ _ _ s)
  | calPoll id o =>
    dsimp only [runMicro, doCalPoll]
    split_ifs
    · exact .inl ⟨_, _, rfl, .inl rfl⟩
    · exact .inr (calTimeout_ended id o _)
    · exact .inl ⟨_, _, rfl, .inr ⟨rfl, rfl⟩⟩
  | pollStatus =>
    dsimp only [runMicro, doPollStatus]
    split
    · exact .inl ⟨_, _, rfl, .inl rfl⟩
    · exact .inl ⟨_, _, rfl, .inr ⟨rfl, rfl⟩⟩
  | pollAux =>
    refine .inl ⟨_, _, rfl, ?_⟩
    cases a with
    | true => exact .inl rfl
    | false => exact .inr ⟨rfl, rfl⟩
  | setProgrammed | finish => exact .inl ⟨_, _, rfl, .inr ⟨rfl, rfl⟩⟩
  | _ => exact .inl ⟨_, _, rfl, .inl rfl⟩

/-- What the items of a script have in common, those that the end of a micro-step leaves have. -/
theorem advance_script_forall {P : Micro → Prop} {l : List Micro} (h : ∀ m ∈ l, P m) (s : State) :
    ∀ m ∈ (advance l s).seq.script, P m := by
  obtain ⟨s', -, ⟨rest, hsuffix, hadv⟩ | ⟨e, hadv⟩⟩ := advance_cases l s
  · rw [hadv]; exact fun m hm => h m (hsuffix.subset hm)
  · rw [hadv]; simp

theorem runMicro_script_forall {P : Micro → Prop} {s : State} {m : Micro} {rest : List Micro} (hm : expand s m = none)
    (h : ∀ x ∈ m :: rest, P x) (a : Bool) : ∀ x ∈ (runMicro m rest a s).seq.script, P x := by
  obtain ⟨l, u, hrun, rfl | ⟨-, rfl⟩⟩ | ⟨-, hnil⟩ := runMicro_goesOn hm rest a
  · rw [hrun]; exact advance_script_forall (fun x hx => h x (List.mem_cons_of_mem m hx)) u
  · rw [hrun]; exact advance_script_forall h u
  · rw [hnil]; simp

/-! ### The applied configuration and the hardware fields -/

/-- The writes of `apply` and its end are the only micro-steps that touch the hardware fields or the applied configuration. -/
theorem runMicro_cur_hw {m : Micro} (hwrite : ∀ t f, m ≠ .applyWrite t f) (hend : ∀ t, m ≠ .applyEnd t) (rest : List Micro)
    (a : Bool) (s : State) :
    (runMicro m rest a s).clk.cur = s.clk.cur ∧ (runMicro m rest a s).clk.state = s.clk.state ∧
      (runMicro m rest a s).clk.hw = s.clk.hw := by
  have hclk := runMicro_clk m rest a s
  cases m with
  | applyWrite t f => exact absurd rfl (hwrite t f)
  | applyEnd t => exact absurd rfl (hend t)
  | calPoll id o =>
    obtain hsame | ⟨f, hstep⟩ := doCalPoll_clk id o rest a s
    · rw [hclk]; dsimp only; rw [hsame]; exact ⟨rfl, rfl, rfl⟩
    · rw [hclk]; dsimp only; rw [hstep]; exact ⟨rfl, rfl, rfl⟩
  | _ => rw [hclk]; exact ⟨rfl, rfl, rfl⟩

end Sys2Proof.Machine
end

section
/-! The PLLs under a micro-step, as the bus limits see them (40_clocktree.md R89, R90). A micro-step is looked at in a state where
one more PLL may be shown as on than is (`shown`), so that the same lemmas serve the runs that start with a source that is
configured but off. -/

namespace Sys2Proof.Machine

/-! ### What a micro-step does to the PLLs, as the bus limits see them -/

theorem pllsOf_beyond {id : PllId} (h : ¬id.toNat < 8) (s : State) : pllsOf s id = (false, 0) := by
  simp [pllsOf, pllAt_beyond h, Pll.reset]

/-- One controller replaced, as the views see it; a PLL beyond the eight is off and not configured, whatever is written. -/
theorem PllReplaced.pllsOf {id : PllId} {p : Pll} {s t : State} (h : PllReplaced id p s t) {x : Bool × Word}
    (hx : (p.enabled, p.configuredFreqMhz) = x) (hheld : id.toNat < 8 ∨ x = (false, 0)) :
    pllsOf t = setView (pllsOf s) id x := by
  funext j
  by_cases hj : j = id
  · subst hj
    by_cases hj : j.toNat < 8
    · simpa [Machine.pllsOf, setView, h j, hj] using hx
    · rw [pllsOf_beyond hj]; simp [setView, hheld.resolve_left hj]
  · simp [Machine.pllsOf, setView, h j, hj]

theorem setView_self (view : PllView) (id : PllId) : setView view id (view id) = view := by
  funext j
  unfold setView
  split
  next h => rw [h]
  next => rfl

theorem pllsOf_of_pllAt_eq {s t : State} (h : ∀ j, pllAt t j = pllAt s j) : pllsOf t = pllsOf s := by
  funext j; simp [pllsOf, h j]

/-- One controller replaced by one that is as much on and configured to the same. -/
theorem PllReplaced.pllsOf_same {id : PllId} {p : Pll} {s t : State} (h : PllReplaced id p s t)
    (hp : (p.enabled, p.configuredFreqMhz) = Machine.pllsOf s id) : Machine.pllsOf t = Machine.pllsOf s := by
  by_cases hheld : id.toNat < 8
  · rw [h.pllsOf hp (.inl hheld), setView_self]
  · rw [h.pllsOf hp (.inr (pllsOf_beyond hheld s)), setView_self]

theorem pllsOf_pllDisableBody (id : PllId) (s : State) :
    pllsOf (pllDisableBody id s) = setView (pllsOf s) id (false, 0) :=
  PllReplaced.pllsOf (fun j => pllAt_pllDisableBody id j s) rfl (.inr rfl)

theorem pllsOf_calPolled (id : PllId) (a : Bool) (s : State) : pllsOf (calPolled id a s) = pllsOf s :=
  (calPolled_replaced id a s).pllsOf_same rfl

theorem pllAt_calTimeout (id j : PllId) (o : Option Word) (s : State) :
    pllAt (calTimeout id o s) j = if j = id ∧ id.toNat < 8 then { pllAt s id with calState := .calFailed } else pllAt s j := by
  cases o <;> simp [calTimeout, pllAt_setPll]

theorem pllsOf_doCalPoll (id : PllId) (o : Option Word) (rest : List Micro) (a : Bool) (s : State) :
    pllsOf (doCalPoll id o rest a s) = pllsOf s := by
  rw [← pllsOf_calPolled id a s]
  dsimp only [doCalPoll]
  split_ifs
  · exact pllsOf_of_pllAt_eq (by simp)
  · exact PllReplaced.pllsOf_same (fun j => pllAt_calTimeout id j o _) rfl
  · exact pllsOf_of_pllAt_eq (by simp)

/-- A micro-step that puts something in a controller finds the PLL among the eight. -/
def holdsPll : Micro → Prop
  | .pllEnable id => id.toNat < 8
  | .calStop id _ => id.toNat < 8
  | _ => True

/-- After a micro-step at least that is known of the PLLs which `viewAfter` says; a disable that finds a consumer has left more
(40_clocktree.md R90, 41_pll.md R107). -/
theorem pllsOf_runMicro (saved : ClockConfig) {s : State} {m : Micro} (hm : expand s m = none) (hheld : holdsPll m)
    (rest : List Micro) (a : Bool) :
    pllsOf (runMicro m rest a s) = viewAfter saved (pllsOf s) m ∨
      pllsOf (runMicro m rest a s) = pllsOf s ∧ ∃ id, viewAfter saved (pllsOf s) m = setView (pllsOf s) id (false, 0) ∧
        (m = .dropPll id ∨ m = .pllDisable id) := by
  cases m with
  | setConfig | restoreSaved | bringUp | apply | program => cases hm
  | dropPll id =>
    dsimp only [runMicro, doDropPll]
    split
    · exact .inl ((pllsOf_of_pllAt_eq (by simp)).trans (pllsOf_pllDisableBody id s))
    · exact .inr ⟨pllsOf_of_pllAt_eq (by simp), id, rfl, .inl rfl⟩
  | pllDisable id =>
    dsimp only [runMicro, doPllDisable]
    split
    · exact .inl ((pllsOf_of_pllAt_eq (by simp)).trans (pllsOf_pllDisableBody id s))
    · exact .inr ⟨pllsOf_of_pllAt_eq (by simp), id, rfl, .inr rfl⟩
  | pllEnable id =>
    exact .inl (PllReplaced.pllsOf (fun j => (advance_pllAt ..).trans (pllAt_pllEnableBody id j s)) rfl (.inl hheld))
  | calDivide id x g =>
    refine .inl (PllReplaced.pllsOf (fun j => (advance_pllAt ..).trans (pllAt_doCalDivide id j x g s)) rfl ?_)
    by_cases h : id.toNat < 8
    · exact .inl h
    · exact .inr (by rw [pllsOf_beyond h])
  | calStart id =>
    exact .inl (PllReplaced.pllsOf_same (fun j => (advance_pllAt ..).trans (pllAt_doCalStart id j s)) rfl)
  | calPoll id o => exact .inl (pllsOf_doCalPoll id o rest a s)
  | calStop id g =>
    exact .inl (PllReplaced.pllsOf (fun j => (advance_pllAt ..).trans (pllAt_doCalStop id j g s)) rfl (.inl hheld))
  | pollStatus =>
    refine .inl (pllsOf_of_pllAt_eq fun j => ?_)
    dsimp only [runMicro, doPollStatus]
    split <;> simp
  | pollAux =>
    refine .inl (pllsOf_of_pllAt_eq fun j => ?_)
    simp [runMicro, doPollAux]
  | _ => exact .inl (pllsOf_of_pllAt_eq fun j => (advance_pllAt ..).trans rfl)

/-! ### A state with one PLL shown as on -/

/-- The view in which PLL `p`, if it is one of the eight, is on. -/
def showView (p : PllId) (view : PllView) : PllView := fun j => if j = p ∧ p.toNat < 8 then (true, (view j).2) else view j

/-- `s` with PLL `p`, if it is one of the eight, on, and with `saved` as the saved configuration. -/
def shown (p : PllId) (saved : ClockConfig) (s : State) : State :=
  setSlp { s.slp with savedCfg := saved } (setPll p { pllAt s p with enabled := true } s)

@[simp] theorem shown_cfg (p : PllId) (saved : ClockConfig) (s : State) : (shown p saved s).cfg = s.cfg := rfl

@[simp] theorem shown_clk (p : PllId) (saved : ClockConfig) (s : State) : (shown p saved s).clk = s.clk := rfl

@[simp] theorem shown_seq (p : PllId) (saved : ClockConfig) (s : State) : (shown p saved s).seq = s.seq := rfl

@[simp] theorem shown_fault (p : PllId) (saved : ClockConfig) (s : State) : (shown p saved s).fault = s.fault := rfl

@[simp] theorem shown_savedCfg (p : PllId) (saved : ClockConfig) (s : State) : (shown p saved s).slp.savedCfg = saved := rfl

theorem pllAt_shown (p j : PllId) (saved : ClockConfig) (s : State) :
    pllAt (shown p saved s) j = if j = p ∧ p.toNat < 8 then { pllAt s p with enabled := true } else pllAt s j :=
  pllAt_setPll p j _ s

theorem pllsOf_shown (p : PllId) (saved : ClockConfig) (s : State) :
    pllsOf (shown p saved s) = showView p (pllsOf s) := by
  funext j
  simp only [pllsOf, showView, pllAt_shown]
  split
  next h => rw [h.1]
  next => rfl

/-- A PLL beyond the eight is shown by no state: nothing has changed then. -/
theorem shown_beyond {p : PllId} (h : ¬p.toNat < 8) (s : State) : shown p s.slp.savedCfg s = s := by
  have hplls : s.plls.setIfInBounds p.toNat { pllAt s p with enabled := true } = s.plls := by
    ext i hi; grind
  unfold shown setPll
  rw [hplls]
  rfl

@[simp] theorem configuredFreqMhz_shown (p j : PllId) (saved : ClockConfig) (s : State) :
    (pllAt (shown p saved s) j).configuredFreqMhz = (pllAt s j).configuredFreqMhz := by
  rw [pllAt_shown]
  split
  next h => rw [h.1]
  next => rfl

theorem setConfigScript_shown (p : PllId) (saved : ClockConfig) (s : State) (t : ClockConfig) :
    setConfigScript (shown p saved s) t = setConfigScript s t := by
  have hreconf : needsReconf (shown p saved s) t = needsReconf s t := by
    unfold needsReconf
    split <;> simp
  have hthrough : goesThroughCrystal (shown p saved s) t = goesThroughCrystal s t := by
    unfold goesThroughCrystal
    rw [hreconf, shown_clk]
  unfold setConfigScript
  rw [hthrough, shown_clk, shown_cfg]

theorem busFreqs_shown (p : PllId) (saved : ClockConfig) (s : State) : busFreqs (shown p saved s) = busFreqs s := by
  have hsrc (src : ClockSource) : srcMhz (shown p saved s) src = srcMhz s src := by
    cases src <;> simp [srcMhz]
  simp [busFreqs, pointOf, hsrc]

/-- What is known after a script item with the PLL shown as on, the state after it shows. -/
theorem viewAfter_showView (p : PllId) (saved : ClockConfig) (view : PllView) {s : State} {m : Micro}
    (hm : expand s m = none) : viewLe (viewAfter saved (showView p view) m) (showView p (viewAfter saved view m)) := by
  have hset (id : PllId) (x y : Bool × Word)
      (hxy : (x.1 = true → y.1 = true ∨ id = p ∧ p.toNat < 8) ∧ (x.2 ≠ 0 → y.2 = x.2)) :
      viewLe (setView (showView p view) id x) (showView p (setView view id y)) := by
    intro j
    by_cases hj : j = id
    · subst hj
      by_cases hp : j = p ∧ p.toNat < 8
      · simpa [setView, showView, hp] using hxy.2
      · simp only [setView, showView, hp, if_true, if_false]
        exact ⟨fun h => (hxy.1 h).resolve_right hp, hxy.2⟩
    · simp [setView, showView, hj]
  have hfreq (id : PllId) : (showView p view id).2 = (view id).2 := by unfold showView; split <;> rfl
  have hon (id : PllId) (h : (showView p view id).1 = true) : (view id).1 = true ∨ id = p ∧ p.toNat < 8 := by
    by_cases hp : id = p ∧ p.toNat < 8
    · exact .inr hp
    · exact .inl (by simpa [showView, hp] using h)
  cases m with
  | setConfig | restoreSaved | bringUp | apply | program => cases hm
  | dropPll id => exact hset id _ _ ⟨fun h => .inl h, fun _ => rfl⟩
  | pllDisable id => exact hset id _ _ ⟨fun h => .inl h, fun _ => rfl⟩
  | pllEnable id => exact hset id _ _ ⟨fun _ => .inl rfl, fun _ => (hfreq id).symm⟩
  | calDivide id x g => exact hset id _ _ ⟨hon id, fun _ => rfl⟩
  | calStop id g => exact hset id _ _ ⟨hon id, fun _ => rfl⟩
  | _ => exact viewLe_refl _

/-- After a micro-step the state with the PLL shown as on knows what the micro-step promises. -/
theorem viewLe_runMicro (p : PllId) (saved : ClockConfig) {s : State} {m : Micro} (hm : expand s m = none)
    (hheld : holdsPll m) (rest : List Micro) (a : Bool) :
    viewLe (viewAfter saved (showView p (pllsOf s)) m) (showView p (pllsOf (runMicro m rest a s))) := by
  obtain hview | ⟨hview, id, -, rfl | rfl⟩ := pllsOf_runMicro saved hm hheld rest a
  · rw [hview]; exact viewAfter_showView p saved _ hm
  all_goals
    rw [hview]
    intro j
    dsimp only [viewAfter, setView]
    split <;> simp

/-- The source of the applied configuration goes on running through a script item that finds what it needs. -/
theorem runsIn_viewAfter {cfg : Cfg} {cur : ClockConfig} {view : PllView} {s : State} {m : Micro} (hm : expand s m = none)
    (saved : ClockConfig) (hok : busItemOk cfg cur view m) (hr : runsIn view cur) : runsIn (viewAfter saved view m) cur := by
  have hother {id : PllId} (x : Bool × Word) (hne : cur.source ≠ .pll id) : runsIn (setView view id x) cur := by
    intro q hq
    have hqid : q ≠ id := by rintro rfl; exact hne hq
    simpa [setView, hqid] using hr q hq
  cases m with
  | setConfig | restoreSaved | bringUp | apply | program => cases hm
  | dropPll id => exact hother _ hok
  | pllDisable id => exact hother _ hok
  | calDivide id x g => exact hother _ hok
  | calStop id g => exact hother _ hok.2
  | pllEnable id =>
    intro q hq
    have hrun := hr q hq
    by_cases hqid : q = id
    · subst hqid; simp [viewAfter, setView, hrun]
    · simpa [viewAfter, setView, hqid] using hrun
  | _ => exact hr

end Sys2Proof.Machine
end

section
/-! The bus limits under every step (40_clocktree.md R89, R90): the position of `BusInv` at the head of a script, what a
micro-step and every other kind of action make of it, and the buses in every state after RESET. -/

namespace Sys2Proof.Machine

/-! ### The invariant at the head of a script -/

/-- The state is between two applies and the script finds what it needs, or the script begins with the writes that are left of
an `apply`: the position of `BusInv`, as the next micro-step finds it. -/
def HeadAt (s : State) (l : List Micro) : Prop :=
  Settled s ∧ busReady s.cfg s.slp.savedCfg s.clk.cur (pllsOf s) l ∨
    ∃ t n rest, validConfig s.cfg t = true ∧ runsIn (pllsOf s) t ∧ HwAt s t n ∧
      l = ((applyOrder s.cfg s.clk.cur t).drop n).map (Micro.applyWrite t) ++ .applyEnd t :: rest ∧
        busReady s.cfg s.slp.savedCfg t (pllsOf s) rest

theorem BusInv.headAt {s : State} (h : BusInv s) (hrun : s.fault.halted = false) : HeadAt s s.seq.script := by
  obtain ⟨hsettled, hhalt | hready⟩ | ⟨t, n, ht, hr, hhw, hhalt | ⟨-, rest, hscript, hready⟩⟩ := h.position
  · exact absurd (hrun.symm.trans hhalt) Bool.noConfusion
  · exact .inl ⟨hsettled, hready⟩
  · exact absurd (hrun.symm.trans hhalt) Bool.noConfusion
  · exact .inr ⟨t, n, rest, ht, hr, hhw, hscript, hready⟩

/-- No control line stands for a list with `set_config(saved_cfg)` in it. -/
theorem restoreSaved_not_mem_expand {s : State} {m : Micro} {l : List Micro} (h : expand s m = some l) : .restoreSaved ∉ l := by
  have hset (t : ClockConfig) : Micro.restoreSaved ∉ setConfigScript s t := by
    dsimp only [setConfigScript]
    cases leftPll s.clk.cur t <;> cases t.source <;> split <;> simp
  cases m <;> cases h
  case setConfig t => exact hset t
  case restoreSaved => exact hset s.slp.savedCfg
  case bringUp t o =>
    unfold bringUpScript
    cases t.source with
    | pll q => dsimp only; split_ifs <;> simp
    | _ => simp
  case apply t => simp [applyScript]
  case program => simp [programScript]

/-- Step 3 of `set_config` finds what it needs also where its PLL is shown as on and is enabled nonetheless (R90). -/
theorem busReady_bringUp_shown {p : PllId} {saved t : ClockConfig} {s : State} {o : Word} {rest : List Micro}
    (hcfg : cfgOk s.cfg = true)
    (h : busReady s.cfg saved s.clk.cur (showView p (pllsOf s)) (.bringUp t o :: rest)) :
    busReady s.cfg saved s.clk.cur (showView p (pllsOf s)) (bringUpScript s t o ++ rest) := by
  have hshown : busReady s.cfg saved s.clk.cur (showView p (pllsOf s)) (bringUpScript (shown p saved s) t o ++ rest) := by
    rw [← pllsOf_shown p saved] at h ⊢
    exact busReady_bringUp (s := shown p saved s) h
  have ⟨⟨ht, _⟩, _⟩ := h
  cases hsource : t.source with
  | pll q =>
    have hid : pllIdOk s.cfg q = true := by
      unfold validConfig at ht
      simp only [hsource, Bool.and_eq_true, decide_eq_true_eq] at ht
      simpa [pllIdOk] using ht.2.1
    have hheld := toNat_lt_of_pllIdOk hcfg hid
    unfold bringUpScript at hshown ⊢
    simp only [hsource, configuredFreqMhz_shown, shown_cfg] at hshown ⊢
    cases hon : (pllAt s q).enabled with
    | true =>
      have hon' : (pllAt (shown p saved s) q).enabled = true := by
        rw [pllAt_shown]; split
        · rfl
        · exact hon
      simpa [hon, hon'] using hshown
    | false =>
      by_cases hq : q = p
      · subst hq
        have hon' : (pllAt (shown q saved s) q).enabled = true := by simp [pllAt_shown, hheld]
        simp only [hon', if_true, List.nil_append] at hshown
        refine ⟨hid, busReady_mono _ (viewLe_of_eq ?_) hshown⟩
        have : (true, (showView q (pllsOf s) q).2) = showView q (pllsOf s) q := by simp [showView, hheld]
        rw [viewAfter, this, setView_self]
      · have hon' : (pllAt (shown p saved s) q).enabled = false := by simp [pllAt_shown, hq, hon]
        simpa [hon, hon'] using hshown
  | _ =>
    unfold bringUpScript at hshown ⊢
    simpa [hsource] using hshown

/-- Resolving the head of the script keeps the position. -/
theorem headAt_resolveHead {p : PllId} {saved : ClockConfig} {s : State} (h : BusInv (shown p saved s)) (n : Nat)
    {l : List Micro} (hsaved : .restoreSaved ∈ l → saved = s.slp.savedCfg) (hl : HeadAt (shown p saved s) l) :
    HeadAt (shown p saved s) (resolveHead n s l) := by
  refine (resolveHead_keeps (P := fun l => (.restoreSaved ∈ l → saved = s.slp.savedCfg) ∧ HeadAt (shown p saved s) l)
    (fun m l rest he hml => ?_) n ⟨hsaved, hl⟩).2
  obtain ⟨hsaved, hhead⟩ := hml
  refine ⟨fun hmem => hsaved ?_, ?_⟩
  · obtain hmem | hmem := List.mem_append.1 hmem
    · exact absurd hmem (restoreSaved_not_mem_expand he)
    · exact List.mem_cons_of_mem m hmem
  obtain ⟨hsettled, hm, hrest⟩ | ⟨t, n, rest', -, -, -, hlist, -⟩ := hhead
  · have hcfg := h.chip.ok
    cases m with
    | setConfig t =>
      cases he
      rw [← setConfigScript_shown p saved]
      exact .inl ⟨hsettled, busReady_setConfig hcfg h.curRuns hm hrest⟩
    | restoreSaved =>
      cases he
      rw [← hsaved List.mem_cons_self, ← setConfigScript_shown p saved]
      exact .inl ⟨hsettled, busReady_setConfig hcfg h.curRuns h.savedValid hrest⟩
    | bringUp t o =>
      cases he
      refine .inl ⟨hsettled, ?_⟩
      rw [pllsOf_shown]
      refine busReady_bringUp_shown (s := s) hcfg ?_
      rw [← pllsOf_shown p saved]
      exact ⟨hm, hrest⟩
    | apply t =>
      cases he
      obtain ⟨hmux, hcpu, hbus, -⟩ := hsettled
      obtain ⟨ht, hr⟩ := hm
      refine .inr ⟨t, 0, rest, ht, hr, hwAt_zero t hmux hcpu hbus, ?_, hrest⟩
      simp [applyScript]
    | program =>
      cases he
      exact .inl ⟨hsettled, busReady_program (s := shown p saved s) hrest⟩
    | _ => cases he
  · have hmem : m ∈ (((applyOrder (shown p saved s).cfg (shown p saved s).clk.cur t).drop n).map (Micro.applyWrite t) ++
        .applyEnd t :: rest').head? := by rw [← hlist]; rfl
    cases hdrop : (applyOrder (shown p saved s).cfg (shown p saved s).clk.cur t).drop n with
    | nil => rw [hdrop] at hmem; simp at hmem; subst hmem; cases he
    | cons f fs => rw [hdrop] at hmem; simp at hmem; subst hmem; cases he

/-! ### One micro-step -/

theorem runMicro_of_expand {s : State} {m : Micro} {l : List Micro} (h : expand s m = some l) (rest : List Micro) (a : Bool) :
    runMicro m rest a s = s := by
  cases m <;> cases h <;> rfl

/-- What the end of a micro-step leaves of a script that finds what it needs. -/
theorem busReady_advance {cfg : Cfg} {saved cur : ClockConfig} {view : PllView} (l : List Micro) (u : State)
    (h : busReady cfg saved cur view l) : busReady cfg saved cur view (advance l u).seq.script := by
  induction l, u using advance.induct with
  | case1 rest u ih => exact ih h.2
  | case2 e rest u => rw [advance_finish, finishOp_seq]; trivial
  | case3 l u h1 h2 => simpa [advance] using h

/-- A script item before which the script may stand again changes nothing that a script needs. -/
theorem viewAfter_of_waits {m : Micro} (h : waits m = true) (saved cur : ClockConfig) (view : PllView) :
    viewAfter saved view m = view ∧ curAfter saved cur m = cur := by
  cases m with
  | calPoll | pollStatus | pollAux | setProgrammed | finish => exact ⟨rfl, rfl⟩
  | _ => cases h

theorem curAfter_of_expand_none {s : State} {m : Micro} (hm : expand s m = none) (saved cur : ClockConfig) :
    curAfter saved cur m = cur := by
  cases m with
  | setConfig | restoreSaved | bringUp | apply | program => cases hm
  | _ => rfl

/-- The fields of the applied configuration with its source running are the settled ones. -/
theorem settled_of_runsIn {s : State} (hmux : s.clk.hw.mux = s.clk.cur.source) (hcpu : s.clk.hw.cpuDiv = s.clk.cur.divider)
    (hbus : ∀ b ∈ chain s.cfg, busDiv s.clk.hw.busDiv b = busDiv (busDivs s.cfg s.clk.cur) b)
    (hv : validConfig s.cfg s.clk.cur = true) (hr : runsIn (pllsOf s) s.clk.cur) : Settled s :=
  ⟨hmux, hcpu, hbus, srcMhz_of_runsIn hv hr⟩

/-- A micro-step between two applies. -/
theorem BusInv.runMicro_resting {p : PllId} {saved : ClockConfig} {s : State} (h : BusInv (shown p saved s)) {m : Micro}
    {rest : List Micro} (hsettled : Settled (shown p saved s))
    (hl : busReady s.cfg saved s.clk.cur (pllsOf (shown p saved s)) (m :: rest)) (a : Bool) :
    BusInv (shown p saved (runMicro m rest a s)) := by
  cases hm : expand s m with
  | some l => rw [runMicro_of_expand hm]; exact h
  | none =>
    have ⟨hok, hrest⟩ := hl
    rw [curAfter_of_expand_none hm] at hrest
    have hheld : holdsPll m := by
      cases m with
      | pllEnable id => exact toNat_lt_of_pllIdOk h.chip.ok hok
      | calStop id g => exact toNat_lt_of_pllIdOk h.chip.ok hok.1
      | _ => trivial
    obtain ⟨hcur, -, hhw⟩ := runMicro_cur_hw (m := m) (by rintro t f rfl; exact hok) (by rintro t rfl; exact hok) rest a s
    have hview := viewLe_runMicro p saved hm hheld rest a
    rw [← pllsOf_shown p saved, ← pllsOf_shown p saved] at hview
    have hv : validConfig s.cfg s.clk.cur = true := h.curValid
    have hruns : runsIn (pllsOf (shown p saved (runMicro m rest a s))) s.clk.cur :=
      runsIn_mono hview (sourceFreq_ne_zero hv) (runsIn_viewAfter hm saved hok h.curRuns)
    have hready : (runMicro m rest a s).fault.halted = true ∨ busReady s.cfg saved s.clk.cur
        (pllsOf (shown p saved (runMicro m rest a s))) (runMicro m rest a s).seq.script := by
      obtain ⟨l, u, hgo, hnext⟩ | ⟨hhalt, -⟩ := runMicro_goesOn hm rest a
      · refine .inr (busReady_mono _ hview ?_)
        rw [hgo]
        refine busReady_advance l u ?_
        obtain rfl | ⟨hwaits, rfl⟩ := hnext
        · exact hrest
        · rw [(viewAfter_of_waits hwaits saved s.clk.cur _).1]; exact hl
      · exact .inl hhalt
    obtain ⟨hmux, hcpu, hbus, -⟩ := hsettled
    refine ⟨?_, ?_, ?_, ?_, .inl ⟨settled_of_runsIn ?_ ?_ ?_ ?_ ?_, ?_⟩⟩ <;>
      simp only [shown_cfg, shown_clk, shown_savedCfg, shown_fault, shown_seq, runMicro_cfg, hcur, hhw]
    · exact h.chip
    · exact h.curValid
    · exact h.savedValid
    · exact hruns
    · exact hmux
    · exact hcpu
    · exact hbus
    · exact h.curValid
    · exact hruns
    · exact hready


/-- The end of a micro-step that a write or the end of an `apply` follows. -/
theorem advance_applyTail (t : ClockConfig) (fs : List RegField) (rest : List Micro) (s : State) :
    advance (fs.map (Micro.applyWrite t) ++ .applyEnd t :: rest) s =
      setSeq { s.seq with script := fs.map (Micro.applyWrite t) ++ .applyEnd t :: rest } s := by
  cases fs with
  | nil => exact advance_cons (by simp) (by simp) s
  | cons f fs => exact advance_cons (by simp) (by simp) s

/-- A write of an `apply` (40_clocktree.md R87). -/
theorem BusInv.applyWrite {p : PllId} {saved : ClockConfig} {s : State} (h : BusInv (shown p saved s))
    (hbusy : s.seq.busy = true) {t : ClockConfig} {n : Nat} {f : RegField} {fs : List RegField} {rest : List Micro}
    (ht : validConfig s.cfg t = true) (hr : runsIn (pllsOf (shown p saved s)) t) (hhw : HwAt s t n)
    (hdrop : (applyOrder s.cfg s.clk.cur t).drop n = f :: fs)
    (hrest : busReady s.cfg saved t (pllsOf (shown p saved s)) rest) (a : Bool) :
    BusInv (shown p saved (runMicro (.applyWrite t f) (fs.map (Micro.applyWrite t) ++ .applyEnd t :: rest) a s)) := by
  have hnext : (applyOrder s.cfg s.clk.cur t)[n]? = some f := by rw [← List.head?_drop, hdrop]; rfl
  have hleft : (applyOrder s.cfg s.clk.cur t).drop (n + 1) = fs := by
    rw [← List.drop_drop, hdrop]; rfl
  dsimp only [runMicro]
  rw [advance_applyTail]
  refine ⟨h.chip, h.curValid, h.savedValid, h.curRuns,
    .inr ⟨t, n + 1, ht, hr, hwAt_write hhw hnext, .inr ⟨hbusy, rest, ?_, hrest⟩⟩⟩
  change _ = ((applyOrder s.cfg s.clk.cur t).drop (n + 1)).map (Micro.applyWrite t) ++ .applyEnd t :: rest
  rw [hleft]; rfl

/-- The end of an `apply`: the configuration is the applied one (R87). -/
theorem BusInv.applyEnd {p : PllId} {saved : ClockConfig} {s : State} (h : BusInv (shown p saved s)) {t : ClockConfig}
    {n : Nat} {rest : List Micro} (ht : validConfig s.cfg t = true) (hr : runsIn (pllsOf (shown p saved s)) t)
    (hhw : HwAt s t n) (hdrop : (applyOrder s.cfg s.clk.cur t).drop n = [])
    (hrest : busReady s.cfg saved t (pllsOf (shown p saved s)) rest) (a : Bool) :
    BusInv (shown p saved (runMicro (.applyEnd t) rest a s)) := by
  have hview : pllsOf (shown p saved (runMicro (.applyEnd t) rest a s)) = pllsOf (shown p saved s) := by
    have hsame : pllsOf (runMicro (.applyEnd t) rest a s) = pllsOf s := pllsOf_of_pllAt_eq (by simp [runMicro])
    rw [pllsOf_shown, pllsOf_shown, hsame]
  have hcur : (runMicro (.applyEnd t) rest a s).clk.cur = t := by simp [runMicro]
  have hhwEq : (runMicro (.applyEnd t) rest a s).clk.hw = s.clk.hw := by simp [runMicro]
  obtain ⟨hmux, hcpu, hbus⟩ := hwAt_end hhw (List.drop_eq_nil_iff.1 hdrop)
  refine ⟨?_, ?_, ?_, ?_, .inl ⟨settled_of_runsIn ?_ ?_ ?_ ?_ ?_, .inr ?_⟩⟩ <;>
    simp only [shown_cfg, shown_clk, shown_savedCfg, shown_seq, runMicro_cfg, hview, hcur, hhwEq]
  · exact h.chip
  · exact ht
  · exact h.savedValid
  · exact hr
  · exact hmux
  · exact hcpu
  · exact hbus
  · exact ht
  · exact hr
  · exact busReady_advance rest _ hrest

/-- A micro-step keeps the invariant, one more PLL shown as on or not, where `saved` is what ENTER_SLEEP goes back to. -/
theorem BusInv.sequencerStep_shown {p : PllId} {saved : ClockConfig} {s : State} (h : BusInv (shown p saved s))
    (hsaved : .restoreSaved ∈ s.seq.script → saved = s.slp.savedCfg) (a : Bool) :
    BusInv (shown p saved (sequencerStep a s)) := by
  obtain hsame | ⟨m, rest, hbusy, hrun, hhead, hstep⟩ := sequencerStep_cases a s
  · rwa [hsame]
  rw [hstep]
  have hat := headAt_resolveHead h 4 hsaved (h.headAt hrun)
  rw [hhead] at hat
  obtain ⟨hsettled, hready⟩ | ⟨t, n, rest', ht, hr, hhw, hlist, hready⟩ := hat
  · exact h.runMicro_resting hsettled hready a
  · rw [shown_cfg, shown_clk] at hlist
    cases hdrop : (applyOrder s.cfg s.clk.cur t).drop n with
    | nil =>
      rw [hdrop] at hlist
      cases hlist
      exact h.applyEnd ht hr hhw hdrop hready a
    | cons f fs =>
      rw [hdrop] at hlist
      cases hlist
      exact h.applyWrite hbusy ht hr hhw hdrop hready a

/-- No micro-step touches the saved configuration: ENTER_SLEEP saves it in its acceptance (42_sleep.md R135). -/
theorem runMicro_savedCfg (m : Micro) (rest : List Micro) (a : Bool) (s : State) :
    (runMicro m rest a s).slp.savedCfg = s.slp.savedCfg := by
  cases m with
  | progWrite f => simpa [runMicro] using (doProgWrite_same f s).configs.2.2
  | sleepStart => simpa [runMicro] using (doSleepStart_same s).configs.2.2
  | pllDisable id => dsimp only [runMicro, doPllDisable]; split <;> simp
  | calPoll id o =>
    dsimp only [runMicro, doCalPoll]
    split_ifs
    · simp
    · cases o <;> simp [calTimeout]
    · simp
  | pollStatus => dsimp only [runMicro, doPollStatus]; split <;> simp
  | _ => simp [runMicro, doBuildParams, doRegdmaWrite, doWakeType, doWakeEn, doRejectEn, doIntClr, doEnterEnd, doPollAux,
      setProgrammed]

theorem sequencerStep_savedCfg (a : Bool) (s : State) : (sequencerStep a s).slp.savedCfg = s.slp.savedCfg := by
  obtain hsame | ⟨m, rest, -, -, -, hstep⟩ := sequencerStep_cases a s
  · rw [hsame]
  · rw [hstep, runMicro_savedCfg]

theorem BusInv.sequencerStep {s : State} (h : BusInv s) (a : Bool) : BusInv (sequencerStep a s) := by
  have hbeyond : ¬(8 : PllId).toNat < 8 := by decide
  have hshown : BusInv (shown 8 s.slp.savedCfg s) := by rwa [shown_beyond hbeyond]
  have hnext := hshown.sequencerStep_shown (fun _ => rfl) a
  rwa [← sequencerStep_savedCfg a s, shown_beyond hbeyond] at hnext

/-! ### Every kind of action -/

/-- Everything that the invariant speaks of is the same, but that HALT may have come. -/
structure SameLimits (s t : State) : Prop where
  configs : SameConfigs s t
  hw : t.clk.hw = s.clk.hw
  plls : pllsOf t = pllsOf s
  goesOn : t.fault.halted = true ∨ t.fault.halted = s.fault.halted ∧ t.seq.busy = s.seq.busy ∧ t.seq.script = s.seq.script

theorem BusInv.of_same {s t : State} (h : BusInv s) (hst : SameLimits s t) : BusInv t := by
  obtain ⟨⟨hcfg, hcur, hsaved⟩, hhw, hplls, hgoes⟩ := hst
  have hsrc (src : ClockSource) : srcMhz t src = srcMhz s src := by
    cases src with
    | pll id => exact congrArg Prod.snd (congrFun hplls id)
    | _ => simp [srcMhz, hcfg]
  refine ⟨?_, ?_, ?_, ?_, ?_⟩
  · rw [hcfg]; exact h.chip
  · rw [hcfg, hcur]; exact h.curValid
  · rw [hcfg, hsaved]; exact h.savedValid
  · rw [hplls, hcur]; exact h.curRuns
  · obtain ⟨hsettled, hready⟩ | ⟨u, n, hu, hr, hat, hready⟩ := h.position
    · refine .inl ⟨?_, ?_⟩
      · unfold Settled; rw [hhw, hcur, hcfg, hsrc]; exact hsettled
      · obtain hhalt | ⟨hfault, -, hscript⟩ := hgoes
        · exact .inl hhalt
        · rw [hfault, hcfg, hsaved, hcur, hplls, hscript]; exact hready
    · refine .inr ⟨u, n, ?_, ?_, ?_, ?_⟩
      · rw [hcfg]; exact hu
      · rw [hplls]; exact hr
      · unfold HwAt; rw [hhw, hcur, hcfg]; exact hat
      · obtain hhalt | ⟨hfault, hbusy, hscript⟩ := hgoes
        · exact .inl hhalt
        · rw [hfault, hbusy, hscript, hcfg, hcur, hsaved, hplls]; exact hready

theorem SameLimits.of_same {s t : State} (hst : SameCalibration s t) (hhw : t.clk.hw = s.clk.hw)
    (hfault : t.fault = s.fault) (hseq : t.seq = s.seq) : SameLimits s t :=
  ⟨hst.configs, hhw, pllsOf_of_pllAt_eq hst.plls, .inr (by rw [hfault, hseq]; exact ⟨rfl, rfl, rfl⟩)⟩

theorem setConsumers_sameLimits (id : PllId) (n : Word) (s : State) : SameLimits s (setConsumers id n s) :=
  ⟨⟨rfl, rfl, rfl⟩, rfl, (setConsumers_replaced id n s).pllsOf_same rfl, .inr ⟨rfl, rfl, rfl⟩⟩

/-- The scripts that ops start with find what they need (40_clocktree.md R90, 41_pll.md R104, R107, 42_sleep.md R135). -/
theorem StartOf.busReady {s : State} {i : Instr} {prep : State → State} {script : List Micro} (h : StartOf s i prep script)
    (hcfg : cfgOk s.cfg = true) (saved : ClockConfig) : busReady s.cfg saved s.clk.cur (pllsOf s) script := by
  cases h with
  | clock i k hk => exact ⟨clockTarget_valid hcfg hk, trivial, trivial⟩
  | cal id x g hid hx hon hc =>
    have hne : s.clk.cur.source ≠ .pll id := by rw [hc]; simp
    exact ⟨hne, trivial, trivial, ⟨hid, hne⟩, trivial, trivial⟩
  | enable id hid => exact ⟨hid, trivial, trivial⟩
  | disable id hid hc => exact ⟨hc, trivial, trivial⟩
  | sleep => simp [Machine.busReady, busItemOk, enterScript, xtalNative_valid hcfg]
  | _ => simp [Machine.busReady, busItemOk, enterScript]

/-- Nothing runs in a state that is ready, so it is between two applies. -/
theorem BusInv.settled {s : State} (h : BusInv s) (hready : Ready s) : Settled s := by
  obtain ⟨hrun, hidle⟩ := hready
  obtain ⟨hsettled, -⟩ | ⟨t, n, -, -, -, hhalt | ⟨hbusy, -⟩⟩ := h.position
  · exact hsettled
  · exact absurd (hrun.symm.trans hhalt) Bool.noConfusion
  · exact absurd (hidle.symm.trans hbusy) Bool.noConfusion

/-- An op that starts from a settled state has its script to find what it needs. -/
theorem busInv_start {s : State} (hchip : CfgWellFormed s.cfg) (hcur : validConfig s.cfg s.clk.cur = true)
    (hsaved : validConfig s.cfg s.slp.savedCfg = true) (hruns : runsIn (pllsOf s) s.clk.cur) (hsettled : Settled s)
    {script : List Micro} (hready : busReady s.cfg s.slp.savedCfg s.clk.cur (pllsOf s) script) : BusInv (start script s) := by
  have hplls : pllsOf (start script s) = pllsOf s := pllsOf_of_pllAt_eq (by simp)
  have hsavedEq : (start script s).slp.savedCfg = s.slp.savedCfg := by simp [start]
  obtain ⟨hmux, hcpu, hbus, -⟩ := hsettled
  refine ⟨?_, ?_, ?_, ?_, .inl ⟨settled_of_runsIn ?_ ?_ ?_ ?_ ?_, .inr ?_⟩⟩ <;>
    simp only [start_cfg, start_clk, hsavedEq, hplls]
  · exact hchip
  · exact hcur
  · exact hsaved
  · exact hruns
  · exact hmux
  · exact hcpu
  · exact hbus
  · exact hcur
  · exact hruns
  · exact busReady_advance script _ hready

/-- What the acceptance effects leave of what the bus limits depend on; ENTER_SLEEP saves the applied configuration. -/
theorem StartOf.prep_limits {s : State} {i : Instr} {prep : State → State} {script : List Micro}
    (h : StartOf s i prep script) :
    (prep s).cfg = s.cfg ∧ (prep s).clk = s.clk ∧ pllsOf (prep s) = pllsOf s ∧
      ((prep s).slp.savedCfg = s.slp.savedCfg ∨ (prep s).slp.savedCfg = s.clk.cur) := by
  have hdiscard : (discardParams s).slp.savedCfg = s.slp.savedCfg := by unfold discardParams; split <;> rfl
  cases h with
  | clock => exact ⟨by simp, by simp, pllsOf_of_pllAt_eq (by simp), .inl hdiscard⟩
  | sleep => exact ⟨by simp [saveConfig], by simp [saveConfig], pllsOf_of_pllAt_eq (by simp [saveConfig]), .inr rfl⟩
  | _ => exact ⟨rfl, rfl, rfl, .inl rfl⟩

theorem Settled.of_same {s t : State} (h : Settled s) (hcfg : t.cfg = s.cfg) (hclk : t.clk = s.clk)
    (hplls : pllsOf t = pllsOf s) : Settled t := by
  have hsrc (src : ClockSource) : srcMhz t src = srcMhz s src := by
    cases src with
    | pll id => exact congrArg Prod.snd (congrFun hplls id)
    | _ => simp [srcMhz, hcfg]
  unfold Settled
  rw [hcfg, hclk, hsrc]
  exact h

theorem raiseFatal_sameLimits (c : Core) (q : Bool) (k : StatusCode) (info : BitVec 16) (s : State) :
    SameLimits s (raiseFatal c q k info s) := by
  refine ⟨(raiseFatal_same c q k info s).configs, by simp, pllsOf_of_pllAt_eq (by simp), .inl ?_⟩
  rw [raiseFatal_fault]
  split <;> simp_all

theorem BusInv.exec {s t : State} {i : Instr} (h : BusInv s) (hexec : exec i s = .next t) : BusInv t := by
  have ended {u : State} (hu : BusInv u) (k : StatusCode) : BusInv (endOp s.env.picked k u) :=
    hu.of_same (.of_same (endOp_same _ k u) rfl rfl rfl)
  obtain ⟨k, rfl⟩ | rfl | ⟨-, hready, prep, script, hstart, rfl⟩ | ⟨-, -, himm⟩ := exec_cases i s t hexec
  · exact ended h k
  · exact h
  · obtain ⟨hcfg, hclk, hplls, hsaved⟩ := hstart.prep_limits
    have hok := hstart.busReady h.chip.ok (prep s).slp.savedCfg
    refine busInv_start ?_ ?_ ?_ ?_ ((h.settled hready).of_same hcfg hclk hplls) ?_
    · rw [hcfg]; exact h.chip
    · rw [hcfg, hclk]; exact h.curValid
    · obtain hsaved | hsaved := hsaved
      · rw [hcfg, hsaved]; exact h.savedValid
      · rw [hcfg, hsaved]; exact h.curValid
    · rw [hplls, hclk]; exact h.curRuns
    · rw [hcfg, hclk, hplls]; exact hok
  · obtain ⟨f, k, -, rfl⟩ | ⟨-, rfl⟩ | ⟨id, -, -, rfl⟩ | ⟨id, -, -, rfl⟩ | ⟨id, -, -, rfl⟩ | ⟨k, p, -, rfl⟩ := himm
    · exact ended (h.of_same (.of_same (setResConfig_same _ k s) rfl rfl rfl)) .ok
    · exact ended (h.of_same (.of_same (setResConfig_same _ _ s) rfl rfl rfl)) .ok
    · exact ended (h.of_same (setConsumers_sameLimits id _ s)) .ok
    · exact ended (h.of_same (setConsumers_sameLimits id _ s)) .ok
    · exact h.of_same (raiseFatal_sameLimits _ _ _ _ s)
    · exact ended (h.of_same (.of_same (setResMode_same _ p s) rfl rfl rfl)) .ok

theorem busInv_resetOf {cfg : Cfg} (h : CfgWellFormed cfg) : BusInv (State.resetOf cfg) where
  chip := h
  curValid := xtalNative_valid h.ok
  savedValid := xtalNative_valid h.ok
  curRuns _ hq := by cases hq
  position := .inl ⟨⟨rfl, rfl, fun _ _ => rfl, rfl⟩, .inr trivial⟩

theorem step_keeps_busInv (s t : State) (hs : BusInv s) (h : step s = .next t) : BusInv t :=
  step_keeps BusInv
    (henv := fun s e h => h.of_same (.of_same ⟨⟨rfl, rfl, rfl⟩, fun _ => rfl, rfl, rfl⟩ rfl rfl rfl))
    (hreset := fun s h => (busInv_resetOf h.chip).of_same (.of_same ⟨⟨rfl, rfl, rfl⟩, fun _ => rfl, rfl, rfl⟩ rfl rfl rfl))
    (hcyc := fun s n h => h.of_same (.of_same ⟨⟨rfl, rfl, rfl⟩, fun _ => rfl, rfl, rfl⟩ rfl rfl rfl))
    (hwrite := fun s off v h => h.of_same (.of_same (writeReg_same off v s) (by simp) (by simp) (by simp)))
    (hend := fun s c k h _ => h.of_same (.of_same (endOp_same c k s) rfl rfl rfl))
    (hexec := fun s i t h _ hexec => h.exec hexec)
    (hseq := fun s a h => h.sequencerStep a)
    (hwt := fun s h => h.of_same (.of_same (ite_setSlp_same rfl) (by simp) (by simp) (by simp)))
    (hlt := fun s h => h.of_same (.of_same (ite_setSlp_same rfl) (by simp) (by simp) (by simp)))
    (hld := fun s h => h.of_same (.of_same (ite_setSlp_same rfl) (by simp) (by simp) (by simp)))
    (hht := fun s h => h.of_same (.of_same (ite_setSlp_same rfl) (by simp) (by simp) (by simp)))
    (hhd := fun s h => h.of_same (.of_same (ite_setSlp_same rfl) (by simp) (by simp) (by simp)))
    s t hs h

/-! ### What the invariant says of the buses -/

/-- The fields are always at an instant of a move between two valid configurations that run. -/
theorem BusInv.hwAt {s : State} (h : BusInv s) :
    ∃ t n, validConfig s.cfg t = true ∧ runsIn (pllsOf s) t ∧ HwAt s t n := by
  obtain ⟨⟨hmux, hcpu, hbus, -⟩, -⟩ | ⟨t, n, ht, hr, hat, -⟩ := h.position
  · exact ⟨s.clk.cur, 0, h.curValid, h.curRuns, hwAt_zero _ hmux hcpu hbus⟩
  · exact ⟨t, n, ht, hr, hat⟩

theorem BusInv.withinLimits {s : State} (h : BusInv s) : withinLimits s.cfg (busFreqs s) = true := by
  obtain ⟨t, n, ht, hr, hat⟩ := h.hwAt
  rw [busFreqs_of_hwAt h.curValid h.curRuns ht hr hat]
  exact h.chip.moves _ t h.curValid ht n

theorem BusInv.sourceOn {s : State} (h : BusInv s) {id : PllId} (hmux : s.clk.hw.mux = .pll id) :
    (pllAt s id).enabled = true ∧ (pllAt s id).configuredFreqMhz ≠ 0 := by
  have on {k : ClockConfig} (hk : validConfig s.cfg k = true) (hr : runsIn (pllsOf s) k) (hsource : k.source = .pll id) :
      (pllAt s id).enabled = true ∧ (pllAt s id).configuredFreqMhz ≠ 0 := by
    obtain ⟨hon, hfreq⟩ := Prod.mk.inj (hr id hsource)
    exact ⟨hon, fun hzero => sourceFreq_ne_zero hk (hfreq.symm.trans hzero)⟩
  obtain ⟨t, n, ht, hr, hat, -⟩ := h.hwAt
  rw [hat] at hmux
  split at hmux
  · exact on ht hr hmux
  · exact on h.curValid h.curRuns hmux

/-! ### From RESET on -/

/-- What every step keeps, every action keeps: each is the step of a state whose agenda begins with it (log 2). -/
theorem act_keeps {Inv : State → Prop} (henv : ∀ s e, Inv s → Inv (setEnv e s))
    (hstep : ∀ s t, Inv s → step s = .next t → Inv t)
    {a : Action} {s t : State} (hs : Inv s) (h : act a s = .next t) : Inv t :=
  hstep (setEnv { s.env with agenda := a :: s.env.agenda } s) t (henv s _ hs) h

theorem runActions_keeps {Inv : State → Prop} (hact : ∀ a s t, Inv s → act a s = .next t → Inv t) {actions : List Action}
    {s t : State} (hs : Inv s) (h : runActions actions s = .next t) : Inv t := by
  induction actions generalizing s with
  | nil => cases h; exact hs
  | cons a rest ih =>
    unfold runActions at h
    cases ha : act a s with
    | next u => rw [ha] at h; exact ih (hact a s u hs ha) h
    | fault r => rw [ha] at h; cases h
    | refused r => rw [ha] at h; cases h

theorem runActions_keeps_busInv {cfg : Cfg} {actions : List Action} {s t : State} (hs : BusInv s ∧ s.cfg = cfg)
    (h : runActions actions s = .next t) : BusInv t ∧ t.cfg = cfg := by
  refine runActions_keeps (Inv := fun s => BusInv s ∧ s.cfg = cfg) (fun a s t hs h => ?_) hs h
  refine ⟨act_keeps (fun s e hs => ?_) step_keeps_busInv hs.1 h, (act_cfg_and_traceGrowsBy a s t h).1.trans hs.2⟩
  exact hs.of_same (.of_same ⟨⟨rfl, rfl, rfl⟩, fun _ => rfl, rfl, rfl⟩ rfl rfl rfl)

/-- Settles O21: `BusInv` is kept by every kind of action, it puts the fields at an instant of a move between two valid
configurations that run, and RESET has it. -/
theorem noBusEverExceedsItsMaximum : Obligations.NoBusEverExceedsItsMaximum := by
  refine ⟨step_keeps_busInv, fun s h => ⟨h.withinLimits, fun id => h.sourceOn⟩, fun cfg actions t hcfg hrun => ?_⟩
  obtain ⟨h, rfl⟩ := runActions_keeps_busInv ⟨busInv_resetOf hcfg, rfl⟩ hrun
  exact ⟨h.withinLimits, fun id => h.sourceOn⟩

end Sys2Proof.Machine
end

section
/-! The clock ops (40_clocktree.md R90, R94): their acceptance, what every micro-step of their run keeps, and the bus limits
along it. -/

namespace Sys2Proof.Machine

/-! ### Acceptance -/

/-- The script a clock op starts with (R90, R94). -/
def clockScript (k : ClockConfig) : List Micro := [.setConfig k, .finish .plain]

theorem clockScript_keepsRunning (k : ClockConfig) : KeepsRunning (clockScript k) :=
  keepsRunning_cons _ (by simp) (by simp)

/-- A clock op with a target starts at once where nothing runs. -/
theorem exec_clockOp {i : Instr} {s : State} {k : ClockConfig} (hready : Ready s) (hk : clockTarget s.cfg i = some k) :
    exec i s = .next (start (clockScript k) (discardParams s)) := by
  cases i with
  | setConfig src sf d f =>
    have hdecode : decodeValidConfig s.cfg src sf d f = some k := hk
    dsimp only [exec, execSetConfig]
    rw [hdecode]
    exact sequenced_started hready rfl _ _
  | setCpuFreq f =>
    have hresolve : resolve s.cfg f = some k := hk
    dsimp only [exec, execSetCpuFreq]
    rw [hresolve]
    exact sequenced_started hready rfl _ _
  | _ => cases hk

theorem start_clockScript (k : ClockConfig) (s : State) :
    start (clockScript k) s =
      setSeq { busy := true, owner := s.env.picked, script := clockScript k, result := none }
        (setMbox s.env.picked { mboxAt s s.env.picked with pending := false, running := true } s) :=
  start_of_keepsRunning (clockScript_keepsRunning k) s

/-! ### Runs -/

theorem runSequencer_keeps {Inv : State → Prop} (hstep : ∀ a s, Inv s → Inv (sequencerStep a s)) (answers : List Bool)
    {s : State} (hs : Inv s) : Inv (runSequencer answers s) := by
  induction answers generalizing s with
  | nil => exact hs
  | cons a rest ih => exact ih (hstep a s hs)

/-- What the items of a script have in common, and the items that a control line among them stands for have too, the items of
the resolved script have. -/
theorem resolveHead_forall {P : Micro → Prop} {s : State} (hexpand : ∀ m l, expand s m = some l → P m → ∀ x ∈ l, P x)
    (n : Nat) {l : List Micro} (h : ∀ m ∈ l, P m) : ∀ m ∈ resolveHead n s l, P m := by
  refine resolveHead_keeps (P := fun l => ∀ x ∈ l, P x) (fun m l rest he hml x hx => ?_) n h
  obtain hx | hx := List.mem_append.1 hx
  · exact hexpand m l he (hml m List.mem_cons_self) x hx
  · exact hml x (List.mem_cons_of_mem m hx)

theorem sequencerStep_script_forall {P : Micro → Prop} {s : State}
    (hexpand : ∀ m l, expand s m = some l → P m → ∀ x ∈ l, P x) (h : ∀ m ∈ s.seq.script, P m) (a : Bool) :
    ∀ m ∈ (sequencerStep a s).seq.script, P m := by
  obtain hsame | ⟨m, rest, -, -, hhead, hstep⟩ := sequencerStep_cases a s
  · rwa [hsame]
  have hresolved : ∀ x ∈ m :: rest, P x := by
    rw [← hhead]
    exact resolveHead_forall hexpand 4 h
  rw [hstep]
  cases hm : expand s m with
  | some l => rwa [runMicro_of_expand hm]
  | none => exact runMicro_script_forall hm hresolved a

/-! ### The bus limits along the run -/

/-- The PLL of a source; of any other source one beyond the eight. -/
def sourcePll : ClockSource → PllId
  | .pll id => id
  | _ => 8

/-- A settled configuration runs where its own PLL is shown as on: it is one of the eight, since it is configured. -/
theorem runsIn_shown_of_settled {s : State} (hsettled : Settled s) (hcur : validConfig s.cfg s.clk.cur = true)
    (saved : ClockConfig) : runsIn (pllsOf (shown (sourcePll s.clk.cur.source) saved s)) s.clk.cur := by
  intro q hq
  obtain ⟨-, -, -, hfreq⟩ := hsettled
  rw [hq] at hfreq
  have hheld : q.toNat < 8 := by
    by_contra hbeyond
    have hzero : srcMhz s (.pll q) = 0 := by simp [srcMhz, pllAt_beyond hbeyond, Pll.reset]
    exact sourceFreq_ne_zero hcur (hfreq.symm.trans hzero)
  rw [pllsOf_shown, hq]
  simpa [showView, sourcePll, hheld, pllsOf, srcMhz] using hfreq

/-- A clock op accepted in a settled state has the invariant, with the PLL of the applied configuration shown as on. -/
theorem busInv_shown_clockOp {s : State} {k : ClockConfig} (hchip : CfgWellFormed s.cfg) (hsettled : Settled s)
    (hcur : validConfig s.cfg s.clk.cur = true) (hk : validConfig s.cfg k = true) :
    BusInv (shown (sourcePll s.clk.cur.source) s.clk.cur (start (clockScript k) (discardParams s))) := by
  have hcommute : shown (sourcePll s.clk.cur.source) s.clk.cur (start (clockScript k) (discardParams s)) =
      start (clockScript k) (shown (sourcePll s.clk.cur.source) s.clk.cur (discardParams s)) := by
    rw [start_clockScript, start_clockScript]
    rfl
  have hcfg : (discardParams s).cfg = s.cfg := discardParams_cfg s
  have hclk : (discardParams s).clk = s.clk := discardParams_clk s
  have hplls : pllsOf (discardParams s) = pllsOf s := pllsOf_of_pllAt_eq (discardParams_pllAt s)
  have hsettled' := hsettled.of_same hcfg hclk hplls
  have hcur' : validConfig (discardParams s).cfg (discardParams s).clk.cur = true := by rw [hcfg, hclk]; exact hcur
  have hruns := runsIn_shown_of_settled hsettled' hcur' s.clk.cur
  rw [hclk] at hruns
  obtain ⟨hmux, hcpu, hbus, -⟩ := hsettled
  rw [hcommute]
  refine busInv_start ?_ ?_ ?_ ?_ (settled_of_runsIn ?_ ?_ ?_ ?_ ?_) ⟨?_, trivial, trivial⟩ <;>
    simp only [shown_cfg, shown_clk, shown_savedCfg, hcfg, hclk]
  · exact hchip
  · exact hcur
  · exact hcur
  · exact hruns
  · exact hmux
  · exact hcpu
  · exact hbus
  · exact hcur
  · exact hruns
  · exact hk

/-- Settles O22: `BusInv` holds along the run with the PLL of the first configuration shown as on, which moves no bus. -/
theorem clockSwitchKeepsBusLimits : Obligations.ClockSwitchKeepsBusLimits := by
  intro i s t k answers hchip hready hsettled hcur htarget hk hexec
  rw [exec_clockOp hready htarget] at hexec
  cases hexec
  generalize hp : sourcePll s.clk.cur.source = p
  have hstart := busInv_shown_clockOp hchip hsettled hcur hk
  rw [hp] at hstart
  have hnone : Micro.restoreSaved ∉ (start (clockScript k) (discardParams s)).seq.script := by
    rw [start_clockScript]; simp [clockScript]
  have hcfg : (start (clockScript k) (discardParams s)).cfg = s.cfg := by simp
  have hkeeps (a : Bool) (u : State) (hu : Micro.restoreSaved ∉ u.seq.script) :
      Micro.restoreSaved ∉ (sequencerStep a u).seq.script := by
    have hforall := sequencerStep_script_forall (P := fun m => m ≠ .restoreSaved) (s := u)
      (fun m l he _ x hx => by rintro rfl; exact restoreSaved_not_mem_expand he hx)
      (fun m hm => by rintro rfl; exact hu hm) a
    exact fun hmem => hforall _ hmem rfl
  obtain ⟨h, -, hcfg⟩ := runSequencer_keeps
    (Inv := fun u => BusInv (shown p s.clk.cur u) ∧ Micro.restoreSaved ∉ u.seq.script ∧ u.cfg = s.cfg)
    (fun a u ⟨h, hu, hcfg⟩ => ⟨h.sequencerStep_shown (fun hmem => absurd hmem hu) a, hkeeps a u hu,
      (sequencerStep_cfg a u).trans hcfg⟩)
    answers ⟨hstart, hnone, hcfg⟩
  have hlimits := h.withinLimits
  rwa [busFreqs_shown, shown_cfg, hcfg] at hlimits

end Sys2Proof.Machine
end

section
/-! What `resolve` answers (40_clocktree.md R82, R83), the ClockConfig in the result registers (R95, 30_encoding.md R63 to R65), and
the refusals of the clock ops (R90, R94). -/

namespace Sys2Proof.Machine

/-! ### `resolve` -/

/-- The crystal branch asks for a frequency that is not 0, and gives it. -/
theorem resolveCrystal_spec {cfg : Cfg} {f : Word} {k : ClockConfig} (h : resolveCrystal cfg f = some k) :
    1 ≤ f.toNat ∧ k = {
      source := .crystal, sourceFreqMhz := cfg.xtalFreqMhz,
      divider := intFraction (BitVec.ofNat 8 (cfg.xtalFreqMhz.toNat / f.toNat)), freqMhz := f } := by
  simp only [resolveCrystal] at h
  split at h
  next hbranch => cases h; exact ⟨hbranch.1, rfl⟩
  next => cases h

theorem resolve_of_crystal {cfg : Cfg} {f : Word} {k : ClockConfig} (h : resolveCrystal cfg f = some k) :
    resolve cfg f = some k := by
  simp [resolve, h]

/-- Where the crystal branch fails, the first table entry of the frequency is taken, and none for the frequency 0 (log 21). -/
theorem resolve_of_table {cfg : Cfg} {f : Word} (h : resolveCrystal cfg f = none) :
    resolve cfg f = if f = 0 then none else cfg.pllTable.find? (fun e => decide (e.freqMhz = f)) := by
  simp [resolve, h]

theorem resolveCrystal_zero (cfg : Cfg) : resolveCrystal cfg 0 = none := by
  cases h : resolveCrystal cfg 0 with
  | none => rfl
  | some k => exact absurd (resolveCrystal_spec h).1 (by decide)

theorem resolve_freqMhz {cfg : Cfg} {f : Word} {k : ClockConfig} (h : resolve cfg f = some k) : k.freqMhz = f ∧ f ≠ 0 := by
  cases hc : resolveCrystal cfg f with
  | some k' =>
    rw [resolve_of_crystal hc] at h
    cases h
    obtain ⟨hf, rfl⟩ := resolveCrystal_spec hc
    exact ⟨rfl, by rintro rfl; exact absurd hf (by decide)⟩
  | none =>
    rw [resolve_of_table hc] at h
    split at h
    next => cases h
    next hf => exact ⟨by simpa using List.find?_some h, hf⟩

/-- Settles O8: the target of SET_CPU_FREQ is valid, and both branches give the frequency asked for. -/
theorem resolveIsExact : Obligations.ResolveIsExact := fun cfg f _ hcfg hk =>
  ⟨clockTarget_valid (s := State.resetOf cfg) (i := .setCpuFreq f) hcfg hk, resolve_freqMhz hk⟩

/-- Under `exact` an integer divider of 8 bits gives a frequency exactly when the product is the source's (R81). -/
theorem divRound_exact_int {cfg : Cfg} (hexact : cfg.divRound = .exact) {d : Nat} (hd : d ≤ 255) (x f : Nat) (hx : 1 ≤ x) :
    divRound cfg x (intFraction (BitVec.ofNat 8 d)) = some f ↔ d * f = x := by
  have hd' : (BitVec.ofNat 8 d).toNat = d := by simp; omega
  have hvalue : fractionValue (intFraction (BitVec.ofNat 8 d)) = { num := d, den := 1 } := by
    simp only [fractionValue, intFraction, hd']; rfl
  simp only [divRound, hvalue, hexact, Nat.mul_one]
  obtain rfl | hpos := Nat.eq_zero_or_pos d
  · simp; omega
  · rw [if_neg (Nat.ne_of_gt hpos)]
    constructor
    · intro h
      split at h
      next hmod => cases h; exact Nat.mul_div_cancel' (Nat.dvd_of_mod_eq_zero hmod)
      next => cases h
    · rintro rfl
      simp [Nat.mul_div_cancel_left f hpos]

/-- Settles O9: the quotient is a divisor exactly when the frequency is one, and then each is the other's quotient. -/
theorem resolveCrystalExactly : Obligations.ResolveCrystalExactly := by
  intro cfg f hcfg hexact
  have hx : 1 ≤ cfg.xtalFreqMhz.toNat := by
    simp only [cfgOk, Bool.and_eq_true, decide_eq_true_eq] at hcfg
    obtain ⟨⟨⟨⟨⟨⟨⟨⟨⟨⟨hx, -⟩, -⟩, -⟩, -⟩, -⟩, -⟩, -⟩, -⟩, -⟩, -⟩ := hcfg
    exact hx
  have hbranch : (resolveCrystal cfg f).isSome = true ↔
      1 ≤ f.toNat ∧ f.toNat ≤ cfg.xtalFreqMhz.toNat ∧ cfg.xtalFreqMhz.toNat / f.toNat ≤ 255 ∧
        cfg.legalXtalDivs.contains (cfg.xtalFreqMhz.toNat / f.toNat) = true ∧
        divRound cfg cfg.xtalFreqMhz.toNat (intFraction (BitVec.ofNat 8 (cfg.xtalFreqMhz.toNat / f.toNat))) =
          some f.toNat := by
    simp only [resolveCrystal]
    split
    next h => exact ⟨fun _ => h, fun _ => rfl⟩
    next h => exact ⟨fun h' => absurd h' (by simp), fun h' => absurd h' h⟩
  constructor
  · rw [hbranch]
    constructor
    · rintro ⟨hf, -, hmost, hlegal, hround⟩
      rw [divRound_exact_int hexact hmost _ _ hx] at hround
      exact ⟨hf, Dvd.intro_left _ hround, hmost, hlegal⟩
    · rintro ⟨hf, hdvd, hmost, hlegal⟩
      exact ⟨hf, Nat.le_of_dvd hx hdvd, hmost, hlegal,
        (divRound_exact_int hexact hmost _ _ hx).2 (Nat.div_mul_cancel hdvd)⟩
  · intro k hk
    obtain ⟨hf, -, hmost, -, hround⟩ := hbranch.1 (by rw [hk]; rfl)
    rw [divRound_exact_int hexact hmost _ _ hx] at hround
    obtain ⟨-, rfl⟩ := resolveCrystal_spec hk
    have hdiv : (BitVec.ofNat 8 (cfg.xtalFreqMhz.toNat / f.toNat)).toNat = cfg.xtalFreqMhz.toNat / f.toNat := by
      simp; omega
    exact ⟨rfl, rfl, rfl, by simpa only [intFraction, hdiv] using hround, rfl, rfl⟩

/-! ### A ClockConfig in the result registers -/

/-- The four registers of a ClockConfig are written and the fifth is kept (30_encoding.md R65). -/
theorem set_config_toList (r : Regs5) (w0 w1 w2 w3 : Word) :
    ((((r.set 0 w0).set 1 w1).set 2 w2).set 3 w3).toList = [w0, w1, w2, w3, r[4]] := by
  apply List.ext_getElem
  · simp
  · intro i hi _
    have hi5 : i < 5 := by simpa using hi
    rw [Vector.getElem_toList]
    match i, hi5 with
    | 0, _ => simp
    | 1, _ => simp
    | 2, _ => simp
    | 3, _ => simp
    | 4, _ => simp

theorem getLast?_toList (r : Regs5) : r.toList.getLast? = some r[4] := by
  rw [List.getLast?_eq_getElem?]
  simp

/-- An op that ends `OK` with a ClockConfig: nothing but its mailbox has changed, and `RES4` is kept (R82, R95). -/
theorem endOp_setResConfig (c : Core) (k : ClockConfig) (s : State) :
    SameButMailboxes s (endOp c .ok (setResConfig c k s)) ∧ OpEnded c .ok s (endOp c .ok (setResConfig c k s)) ∧
      ∃ r4, (mboxAt s c).res.toList.getLast? = some r4 ∧
        resList (endOp c .ok (setResConfig c k s)) c =
          [sourceCode k.source, k.sourceFreqMhz, packFraction k.divider, k.freqMhz, r4] := by
  refine ⟨rfl, ⟨fun d hd => (mboxAt_endOp_ne hd _ _).trans (setResConfig_otherMailboxes c k s d hd), ?_⟩, _,
    getLast?_toList _, ?_⟩
  · simp [EndedWith, setResConfig, mboxAt_setRes]
  · rw [← set_config_toList]
    simp [resList, setResConfig, mboxAt_setRes]

theorem execResolve_some {s : State} {f : Word} {k : ClockConfig} (hrun : s.fault.halted = false)
    (hk : resolve s.cfg f = some k) :
    exec (.resolve f) s = .next (endOp s.env.picked .ok (setResConfig s.env.picked k s)) := by
  simp [exec, execResolve, immediate, hrun, hk, firstFailing_cons]

theorem execResolve_none {s : State} {f : Word} (hrun : s.fault.halted = false) (hk : resolve s.cfg f = none) :
    exec (.resolve f) s = .next (endOp s.env.picked .unsupportedFrequency s) := by
  simp [exec, execResolve, immediate, hrun, hk, firstFailing_cons]

theorem decodeConfig_eq_some (cfg : Cfg) (r0 r1 r2 r3 : Word) (k : ClockConfig) :
    decodeConfig cfg r0 r1 r2 r3 = some k ↔
      decodeSource cfg r0 = some k.source ∧ decodeFraction cfg r2 = some k.divider ∧
        k.sourceFreqMhz = r1 ∧ k.freqMhz = r3 := by
  unfold decodeConfig
  cases hsource : decodeSource cfg r0 with
  | none => simp
  | some src =>
    cases hfraction : decodeFraction cfg r2 with
    | none => simp
    | some q =>
      obtain ⟨ksrc, kfreq, kdiv, kout⟩ := k
      simp only [Option.some.injEq, ClockConfig.mk.injEq]
      grind

/-- A valid configuration is one whose own registers decode (40_clocktree.md R83). -/
theorem decodable_of_valid {cfg : Cfg} {k : ClockConfig} (h : validConfig cfg k = true) :
    (match k.source with | .pll id => id.toNat < cfg.nPll | _ => True) ∧ fractionOk cfg k.divider = true := by
  simp only [validConfig, Bool.and_eq_true, decide_eq_true_eq] at h
  obtain ⟨⟨⟨hdiv, -⟩, -⟩, hsource⟩ := h
  refine ⟨?_, hdiv⟩
  cases hs : k.source with
  | pll id =>
    simp only [hs, Bool.and_eq_true, decide_eq_true_eq] at hsource
    exact hsource.1
  | _ => trivial

/-- Four words decode to a valid configuration exactly when they are its words (30_encoding.md R65). -/
theorem decodeValidConfig_eq_some (cfg : Cfg) (r0 r1 r2 r3 : Word) (k : ClockConfig) :
    decodeValidConfig cfg r0 r1 r2 r3 = some k ↔
      validConfig cfg k = true ∧
        [r0, r1, r2, r3] = [sourceCode k.source, k.sourceFreqMhz, packFraction k.divider, k.freqMhz] := by
  have hdecode : decodeValidConfig cfg r0 r1 r2 r3 = some k ↔
      validConfig cfg k = true ∧ decodeConfig cfg r0 r1 r2 r3 = some k := by
    unfold decodeValidConfig
    cases decodeConfig cfg r0 r1 r2 r3 with
    | none => simp
    | some k' => grind
  rw [hdecode, decodeConfig_eq_some, decodeSource_eq_some, decodeFraction_eq_some]
  refine and_congr_right fun hk => ?_
  obtain ⟨hsource, hdiv⟩ := decodable_of_valid hk
  simp only [List.cons.injEq, and_true]
  constructor
  · rintro ⟨⟨-, h0⟩, ⟨-, h2⟩, h1, h3⟩
    exact ⟨h0, h1.symm, h2, h3.symm⟩
  · rintro ⟨h0, h1, h2, h3⟩
    exact ⟨⟨hsource, h0⟩, ⟨hdiv, h2⟩, h1.symm, h3.symm⟩

/-- Settles O10: RESOLVE ends with what `resolve` answers (`endOp_setResConfig`), which is the crystal branch or the first table
entry; the bits are `sourceCode_bits` and `packFraction_bits`, and the words those of `decodeValidConfig_eq_some`. -/
theorem resolveRuns : Obligations.ResolveRuns := by
  refine ⟨fun f s hrun => ⟨fun k hk => ?_, fun hnone => ?_⟩, sourceCode_bits, packFraction_bits, decodeValidConfig_eq_some⟩
  · have hresolve : resolve s.cfg f = some k := by
      obtain hcrystal | ⟨hf, hcrystal, hfind⟩ := hk
      · exact resolve_of_crystal hcrystal
      · rw [resolve_of_table hcrystal, if_neg hf, hfind]
    obtain ⟨hframe, hended, r4, hlast, hres⟩ := endOp_setResConfig s.env.picked k s
    exact ⟨_, r4, execResolve_some hrun hresolve, hframe, hended, hlast, hres⟩
  · have hresolve : resolve s.cfg f = none := by
      obtain rfl | ⟨hcrystal, hother⟩ := hnone
      · rw [resolve_of_table (resolveCrystal_zero s.cfg), if_pos rfl]
      · rw [resolve_of_table hcrystal]
        split
        next => rfl
        next => simpa using hother
    exact ⟨_, execResolve_none hrun hresolve, endOp_refusedWith _ _ s⟩

/-- Settles O11: the word decodes by its opcode with an immediate of 0, and the body is `endOp_setResConfig` of `cur`. -/
theorem getCpuFreqReturnsCur : Obligations.GetCpuFreqReturnsCur := by
  refine ⟨fun _ => rfl, rfl, fun s hrun => ?_⟩
  have hexec : exec .getCpuFreq s = .next (endOp s.env.picked .ok (setResConfig s.env.picked s.clk.cur s)) := by
    simp [exec, execGetCpuFreq, immediate, hrun]
  obtain ⟨hframe, hended, r4, hlast, hres⟩ := endOp_setResConfig s.env.picked s.clk.cur s
  exact ⟨_, r4, hexec, hframe, hended, hlast, hres⟩

/-- Settles O13: the only check of either op fails. -/
theorem clockRequestsRefused : Obligations.ClockRequestsRefused := by
  refine ⟨fun src sf d f s hready hnone => ?_, fun f s hready hnone => ?_⟩
  · refine ⟨_, sequenced_refused hready ?_ _ _, endOp_refusedWith _ .invalidConfig s⟩
    rw [hnone]; rfl
  · refine ⟨_, sequenced_refused hready ?_ _ _, endOp_refusedWith _ .unsupportedFrequency s⟩
    rw [hnone]; rfl

end Sys2Proof.Machine
end

section
/-! The writes of `apply` and their order (40_clocktree.md R87, R88), the last micro-step of `apply` (R96), and step 5 (R92). -/

namespace Sys2Proof.Machine

/-! ### The order of the writes -/

/-- The CPU is the first bus of every chain, and is there once (R84). -/
theorem chain_eq (cfg : Cfg) : ∃ outer, chain cfg = .cpu :: outer ∧ Bus.cpu ∉ outer := by
  refine ⟨[Bus.ahb, .mem, .sys, .apb].filter fun b => (busLimit cfg.limits b).isSome, ?_, by simp⟩
  rw [chain, List.filter_cons_of_pos (by simp [busLimit])]

theorem chain_nodup (cfg : Cfg) : (chain cfg).Nodup := List.Nodup.filter _ (by decide)

/-- The buses are written in the order of the chain or in the reverse one. -/
theorem divOrder_perm (cfg : Cfg) (cur t : ClockConfig) : (divOrder cfg cur t).Perm (chain cfg) := by
  unfold divOrder
  split
  · exact List.reverse_perm _
  · exact List.Perm.refl _

theorem divOrder_ne_nil (cfg : Cfg) (cur t : ClockConfig) : divOrder cfg cur t ≠ [] := by
  obtain ⟨outer, hchain, -⟩ := chain_eq cfg
  intro hnil
  have hperm := divOrder_perm cfg cur t
  rw [hnil, hchain] at hperm
  exact absurd hperm.length_eq (by simp)

theorem applyOrder_of_muxFirst {cur t : ClockConfig} (h : muxFirst cur t = true) (cfg : Cfg) :
    applyOrder cfg cur t = .muxSel :: (divOrder cfg cur t).map .div := by
  simp [applyOrder, h]

theorem applyOrder_of_muxLast {cur t : ClockConfig} (h : muxFirst cur t = false) (cfg : Cfg) :
    applyOrder cfg cur t = (divOrder cfg cur t).map .div ++ [.muxSel] := by
  simp [applyOrder, h]

/-- The select stands somewhere among the dividers. -/
theorem applyOrder_perm (cfg : Cfg) (cur t : ClockConfig) : (applyOrder cfg cur t).Perm (.muxSel :: (chain cfg).map .div) := by
  have hdivs := ((divOrder_perm cfg cur t).map RegField.div).cons RegField.muxSel
  cases h : muxFirst cur t with
  | true => rw [applyOrder_of_muxFirst h]; exact hdivs
  | false => rw [applyOrder_of_muxLast h]; exact (List.perm_append_comm).trans hdivs

theorem applyOrder_nodup (cfg : Cfg) (cur t : ClockConfig) : (applyOrder cfg cur t).Nodup := by
  rw [(applyOrder_perm cfg cur t).nodup_iff, List.nodup_cons]
  exact ⟨by simp, (chain_nodup cfg).map fun _ _ h => RegField.div.inj h⟩

theorem muxFirst_iff (cur t : ClockConfig) : muxFirst cur t = true ↔ t.sourceFreqMhz.toNat < cur.sourceFreqMhz.toNat := by
  simp [muxFirst]

theorem goesUp_iff (cur t : ClockConfig) :
    goesUp cur t = true ↔ cur.freqMhz.toNat < t.freqMhz.toNat ∨
      cur.freqMhz = t.freqMhz ∧ cur.sourceFreqMhz.toNat < t.sourceFreqMhz.toNat := by
  simp [goesUp]

theorem applyOrder_head? (cfg : Cfg) (cur t : ClockConfig) :
    (applyOrder cfg cur t).head? = some .muxSel ↔ muxFirst cur t = true := by
  cases h : muxFirst cur t with
  | true => simp [applyOrder_of_muxFirst h]
  | false =>
    obtain ⟨b, rest, hdivs⟩ := List.exists_cons_of_ne_nil (divOrder_ne_nil cfg cur t)
    simp [applyOrder_of_muxLast h, hdivs]

theorem applyOrder_getLast? (cfg : Cfg) (cur t : ClockConfig) :
    (applyOrder cfg cur t).getLast? = some .muxSel ↔ muxFirst cur t = false := by
  cases h : muxFirst cur t with
  | true =>
    have hne : (divOrder cfg cur t).map RegField.div ≠ [] := by simpa using divOrder_ne_nil cfg cur t
    rw [applyOrder_of_muxFirst h, List.getLast?_cons_of_ne_nil hne]
    simp [List.getLast?_map]
  | false => simp [applyOrder_of_muxLast h]

theorem applyOrder_filter_divs (cfg : Cfg) (cur t : ClockConfig) :
    (applyOrder cfg cur t).filter (fun f => decide (f ≠ .muxSel)) = (divOrder cfg cur t).map .div := by
  have hdivs : ((divOrder cfg cur t).map RegField.div).filter (fun f => decide (f ≠ .muxSel)) =
      (divOrder cfg cur t).map .div := by
    rw [List.filter_eq_self]; simp
  cases h : muxFirst cur t with
  | true => rw [applyOrder_of_muxFirst h, List.filter_cons_of_neg (by simp), hdivs]
  | false => rw [applyOrder_of_muxLast h, List.filter_append, hdivs]; simp

/-- Settles O15: the order is the select and the dividers in the order of R88, and the values are the cases of `applyValue`. -/
theorem applyWritesEveryDividerOnce : Obligations.ApplyWritesEveryDividerOnce := by
  intro cfg cur t
  refine ⟨applyOrder_perm cfg cur t, applyOrder_nodup cfg cur t, ?_, ?_, ?_, rfl, rfl, ?_⟩
  · rw [applyOrder_head?, muxFirst_iff]
  · rw [applyOrder_getLast?, ← Bool.not_eq_true, muxFirst_iff, Nat.not_lt]
  · rw [applyOrder_filter_divs, divOrder]
    simp only [goesUp_iff]
  · intro b hb
    cases b with
    | cpu => exact absurd rfl hb
    | _ => rfl

/-! ### The last micro-step of `apply` -/

/-- The applied configuration and `clk_state` are the same. -/
def SameApplied (s t : State) : Prop := t.clk.cur = s.clk.cur ∧ t.clk.state = s.clk.state

theorem SameApplied.of_clk_eq {s t : State} (h : t.clk = s.clk) : SameApplied s t := by rw [SameApplied, h]; exact ⟨rfl, rfl⟩

/-- A micro-step changes them only at the end of an `apply`, together (R87, R96). -/
theorem runMicro_applied (m : Micro) (rest : List Micro) (a : Bool) (s : State) :
    SameApplied s (runMicro m rest a s) ∨
      ∃ t, m = .applyEnd t ∧ (runMicro m rest a s).clk.cur = t ∧ (runMicro m rest a s).clk.state = stateOf t.source := by
  by_cases hend : ∃ t, m = .applyEnd t
  · obtain ⟨t, rfl⟩ := hend
    exact .inr ⟨t, rfl, by simp [runMicro], by simp [runMicro]⟩
  by_cases hwrite : ∃ t f, m = .applyWrite t f
  · obtain ⟨t, f, rfl⟩ := hwrite
    exact .inl ⟨by simp [runMicro], by simp [runMicro]⟩
  · obtain ⟨hcur, hstate, -⟩ :=
      runMicro_cur_hw (fun t f h => hwrite ⟨t, f, h⟩) (fun t h => hend ⟨t, h⟩) rest a s
    exact .inl ⟨hcur, hstate⟩

theorem acceptCommand_clk {c : Core} {s t : State} (h : acceptCommand c s = .next t) : t.clk = s.clk := by
  unfold acceptCommand at h
  split at h
  · split at h
    · exact (exec_clk h).trans (setEnv_clk _ s)
    · cases h; rfl
  · cases h; rfl

/-- Of all actions only RESET and the micro-step at the end of an `apply` change them. -/
theorem act_applied {a : Action} {s t : State} (h : act a s = .next t) :
    SameApplied s t ∨ a = .reset ∨
      ∃ answer k rest, a = .sequencer answer ∧ resolveHead 4 s s.seq.script = .applyEnd k :: rest ∧
        t.clk.cur = k ∧ t.clk.state = stateOf k.source := by
  cases a with
  | sequencer answer =>
    cases h
    obtain hsame | ⟨m, rest, -, -, hhead, hstep⟩ := sequencerStep_cases answer s
    · rw [hsame]; exact .inl ⟨rfl, rfl⟩
    · rw [hstep]
      obtain hsame | ⟨k, rfl, hcur, hstate⟩ := runMicro_applied m rest answer s
      · exact .inl hsame
      · exact .inr (.inr ⟨answer, k, rest, rfl, hhead, hcur, hstate⟩)
  | reset => exact .inr (.inl rfl)
  | accept c => exact .inl (.of_clk_eq (acceptCommand_clk h))
  | hostWrite addr bytes v =>
    dsimp only [act, hostWrite] at h
    split at h <;> cases h
    split
    · exact .inl (.of_clk_eq (writeReg_clk _ v s))
    · exact .inl ⟨rfl, rfl⟩
  | hostRead addr bytes =>
    dsimp only [act, hostRead] at h
    split at h <;> cases h
    exact .inl ⟨rfl, rfl⟩
  | wakeTrigger => cases h; exact .inl (.of_clk_eq (wakeTrigger_clk s))
  | lpTick => cases h; exact .inl (.of_clk_eq (lpTick_clk s))
  | lpDone => cases h; exact .inl (.of_clk_eq (lpDone_clk s))
  | hpTick => cases h; exact .inl (.of_clk_eq (hpTick_clk s))
  | hpDone => cases h; exact .inl (.of_clk_eq (hpDone_clk s))
  | setWakeLines | setRejectLines | addCycles => cases h; exact .inl ⟨rfl, rfl⟩

/-- The environment's part says nothing about what a script stands for. -/
theorem resolveHead_setEnv (n : Nat) (e : Env) (s : State) (l : List Micro) :
    resolveHead n (setEnv e s) l = resolveHead n s l := by
  have hexpand (m : Micro) : expand (setEnv e s) m = expand s m := by cases m <;> rfl
  induction n generalizing l with
  | zero => rfl
  | succ n ih =>
    cases l with
    | nil => rfl
    | cons m rest =>
      simp only [resolveHead, hexpand]
      cases expand s m with
      | none => rfl
      | some l' => exact ih _

/-- Settles O16: `act_applied` for the action that comes next. -/
theorem clockStateChangesOnlyAtApplyEnd : Obligations.ClockStateChangesOnlyAtApplyEnd := by
  intro s t h hchanged
  obtain ⟨e, he⟩ := choiceTaken_eq s
  have hact := act_applied h
  rw [he, setEnv_seq, resolveHead_setEnv] at hact
  obtain ⟨hcur, hstate⟩ | hreset | hend := hact
  · exact absurd hchanged (by simp [hcur, hstate])
  · exact .inl hreset
  · exact .inr hend

/-! ### Step 5 -/

/-- The rescaled counter: the quotient of the exact product, modulo 2^32 (R92). -/
theorem toNat_rescale {oldMhz : Word} (h : 1 ≤ oldMhz.toNat) (counter newMhz : Word) :
    (rescale counter oldMhz newMhz).toNat = counter.toNat * newMhz.toNat / oldMhz.toNat % 2 ^ 32 := by
  simp [rescale, natDiv, Nat.ne_of_gt h]

theorem rescale_self {mhz : Word} (h : 1 ≤ mhz.toNat) (counter : Word) : rescale counter mhz mhz = counter := by
  apply BitVec.eq_of_toNat_eq
  rw [toNat_rescale h, Nat.mul_div_cancel _ h, Nat.mod_eq_of_lt counter.isLt]

theorem rescale_le {oldMhz newMhz : Word} (h : 1 ≤ oldMhz.toNat) (hle : newMhz.toNat ≤ oldMhz.toNat) (counter : Word) :
    (rescale counter oldMhz newMhz).toNat ≤ counter.toNat := by
  rw [toNat_rescale h]
  calc counter.toNat * newMhz.toNat / oldMhz.toNat % 2 ^ 32
      ≤ counter.toNat * newMhz.toNat / oldMhz.toNat := Nat.mod_le _ _
    _ ≤ counter.toNat * oldMhz.toNat / oldMhz.toNat := Nat.div_le_div_right (Nat.mul_le_mul_left _ hle)
    _ = counter.toNat := Nat.mul_div_cancel _ h

/-- Settles O18: step 5 is one `rescale`. -/
theorem stepFiveRescales : Obligations.StepFiveRescales := fun _ _ s hold =>
  ⟨rfl, toNat_rescale hold _ _, by rintro rfl; exact rescale_self hold _, fun hle => rescale_le hold hle _, rfl⟩

end Sys2Proof.Machine
end

section
/-! Uninterrupted runs (40_clocktree.md R90, 41_pll.md R103): a run of micro-steps is the composition of their bodies, and a
control line runs as what it stands for. The state of a running op with a script left is written `advance script s`. -/

namespace Sys2Proof.Machine

/-! ### The body of a micro-step -/

/-- The micro-steps of the clock ops whose work is a body followed by the rest of the script; a poll is one where it is
answered 1. -/
def isPlain (a : Bool) : Micro → Bool
  | .applyWrite _ _ | .applyEnd _ | .dropPll _ | .stepFive _ _ | .pllEnable _ | .calDivide _ _ _ | .calStart _
  | .calStop _ _ => true
  | .calPoll _ _ => a
  | _ => false

/-- That body; `runMicro_plain` ties it to `runMicro`. -/
def microBody (a : Bool) : Micro → State → State
  | .applyWrite t f => doApplyWrite t f
  | .applyEnd t => doApplyEnd t
  | .dropPll p => doDropPll p
  | .stepFive oldMhz newMhz => doStepFive oldMhz newMhz
  | .pllEnable id => pllEnableBody id
  | .calDivide id xtalMhz targetMhz => doCalDivide id xtalMhz targetMhz
  | .calStart id => doCalStart id
  | .calPoll id _ => calPolled id a
  | .calStop id targetMhz => doCalStop id targetMhz
  | _ => id

/-- The bodies of a list of micro-steps, one after the other. -/
def bodies (a : Bool) (ms : List Micro) (s : State) : State := ms.foldl (fun u m => microBody a m u) s

@[simp] theorem bodies_nil (a : Bool) (s : State) : bodies a [] s = s := rfl

@[simp] theorem bodies_cons (a : Bool) (m : Micro) (ms : List Micro) (s : State) :
    bodies a (m :: ms) s = bodies a ms (microBody a m s) := rfl

theorem bodies_append (a : Bool) (ms ns : List Micro) (s : State) : bodies a (ms ++ ns) s = bodies a ns (bodies a ms s) :=
  List.foldl_append

theorem runMicro_plain {a : Bool} {m : Micro} (hm : isPlain a m = true) (rest : List Micro) (s : State) :
    runMicro m rest a s = advance rest (microBody a m s) := by
  cases m with
  | applyWrite | applyEnd | dropPll | stepFive | pllEnable | calDivide | calStart | calStop => rfl
  | calPoll id o =>
    obtain rfl : a = true := hm
    rfl
  | _ => cases hm

theorem expand_of_plain {a : Bool} {m : Micro} (hm : isPlain a m = true) (s : State) : expand s m = none := by
  cases m with
  | setConfig | restoreSaved | bringUp | apply | program => cases hm
  | _ => rfl

theorem ne_unmarked_of_plain {a : Bool} {m : Micro} (hm : isPlain a m = true) :
    m ≠ .setProgrammed ∧ ∀ e, m ≠ .finish e := by
  refine ⟨?_, fun e => ?_⟩ <;> rintro rfl <;> cases hm

/-! ### The script of a state -/

/-- `s` with `l` as the remaining script. -/
def atScript (l : List Micro) (s : State) : State := setSeq { s.seq with script := l } s

theorem advance_eq_atScript {m : Micro} (h : m ≠ .setProgrammed ∧ ∀ e, m ≠ .finish e) (rest : List Micro) (s : State) :
    advance (m :: rest) s = atScript (m :: rest) s :=
  advance_cons h.1 h.2 s

/-- The end of a micro-step replaces the script. -/
theorem advance_atScript (l l' : List Micro) (s : State) : advance l (atScript l' s) = advance l s := by
  induction l, s using advance.induct with
  | case1 rest s ih => exact ih
  | case2 e rest s =>
    rw [advance_finish, advance_finish]
    cases e with
    | sleepResult =>
      dsimp only [finishOp, setResults, setResSleep, atScript, setSeq_seq]
      cases s.seq.result <;> rfl
    | _ => rfl
  | case3 l s h1 h2 => simp [advance, atScript]; rfl

/-- No body looks at the script or changes it. -/
theorem microBody_atScript (a : Bool) (m : Micro) (l : List Micro) (s : State) :
    microBody a m (atScript l s) = atScript l (microBody a m s) := by
  have forget (id : PllId) (u : State) : forgetCurPll id (atScript l u) = atScript l (forgetCurPll id u) := by
    unfold forgetCurPll
    exact (apply_ite (atScript l) (u.lastCalPll = id) (setCurPll 0 u.lastCalPll u) u).symm
  cases m with
  | dropPll p =>
    dsimp only [microBody, doDropPll]
    rw [apply_ite (atScript l)]
    exact if_congr Iff.rfl (forget p (setPll p { pllAt s p with enabled := false, configuredFreqMhz := 0, calState := .calIdle }
      (emit (.w (.pllPwr p) 0) s))) rfl
  | calDivide id x g =>
    exact forget id (setPll id { pllAt s id with configuredFreqMhz := 0 }
      (emit (.w (.pllDiv id) (Config.pllDivWords id x g)) s))
  | _ => rfl

theorem microBody_seq (a : Bool) (m : Micro) (s : State) : (microBody a m s).seq = s.seq := by
  cases m <;> simp [microBody]

theorem microBody_fault (a : Bool) (m : Micro) (s : State) : (microBody a m s).fault = s.fault := by
  cases m <;> simp [microBody]

/-! ### Resolving the head -/

theorem expand_atScript (l : List Micro) (s : State) (m : Micro) : expand (atScript l s) m = expand s m := by
  cases m <;> rfl

theorem resolveHead_atScript (n : Nat) (l' : List Micro) (s : State) (l : List Micro) :
    resolveHead n (atScript l' s) l = resolveHead n s l := by
  induction n generalizing l with
  | zero => rfl
  | succ n ih =>
    cases l with
    | nil => rfl
    | cons m rest =>
      simp only [resolveHead, expand_atScript]
      cases expand s m with
      | none => rfl
      | some l'' => exact ih _

/-- The head of the script resolves to a plain micro-step in at most `n` replacements. -/
def ResolvesIn (a : Bool) (n : Nat) (s : State) (l : List Micro) : Prop :=
  ∃ m rest, isPlain a m = true ∧ ∀ k, n ≤ k → resolveHead k s l = m :: rest

theorem resolvesIn_plain {a : Bool} {m : Micro} (hm : isPlain a m = true) (n : Nat) (s : State) (rest : List Micro) :
    ResolvesIn a n s (m :: rest) := by
  refine ⟨m, rest, hm, fun k _ => ?_⟩
  cases k with
  | zero => rfl
  | succ k => rw [resolveHead, expand_of_plain hm]

theorem ResolvesIn.control {a : Bool} {n : Nat} {s : State} {m : Micro} {l rest : List Micro} (he : expand s m = some l)
    (h : ResolvesIn a n s (l ++ rest)) : ResolvesIn a (n + 1) s (m :: rest) := by
  obtain ⟨x, rest', hx, hres⟩ := h
  refine ⟨x, rest', hx, fun k hk => ?_⟩
  obtain ⟨k, rfl⟩ := Nat.exists_eq_add_of_le hk
  rw [show n + 1 + k = (n + k) + 1 by omega, resolveHead, he]
  exact hres _ (by omega)

/-- An op runs, and the block is not in HALT. -/
def Running (s : State) : Prop := s.seq.busy = true ∧ s.fault.halted = false

theorem Running.microBody {s : State} (h : Running s) (a : Bool) (m : Micro) : Running (microBody a m s) := by
  rw [Running, microBody_seq, microBody_fault]; exact h

/-- A sequencer action of a running op whose head resolves to a plain micro-step. -/
theorem sequencerStep_atScript {a : Bool} {s : State} (h : Running s) {l : List Micro} {m : Micro} {rest : List Micro}
    (hm : isPlain a m = true) (hhead : resolveHead 4 s l = m :: rest) :
    sequencerStep a (atScript l s) = advance rest (microBody a m s) := by
  have hrun : (atScript l s).seq.busy = true ∧ (atScript l s).fault.halted = false := h
  unfold sequencerStep
  rw [if_pos hrun, resolveHead_atScript, show (atScript l s).seq.script = l from rfl, hhead]
  dsimp only
  rw [runMicro_plain hm, microBody_atScript, advance_atScript]

/-! ### Runs -/

/-- One or more micro-steps with every poll answered `a`. -/
def RunsTo (a : Bool) (s t : State) : Prop := ∃ n, runSequencer (List.replicate (n + 1) a) s = t

theorem RunsTo.step (a : Bool) (s : State) : RunsTo a s (sequencerStep a s) := ⟨0, rfl⟩

theorem RunsTo.cons {a : Bool} {s t : State} (h : RunsTo a (sequencerStep a s) t) : RunsTo a s t := by
  obtain ⟨n, rfl⟩ := h
  exact ⟨n + 1, rfl⟩

/-- Two states with the same next micro-step run alike. -/
theorem RunsTo.of_step_eq {a : Bool} {s s' t : State} (heq : sequencerStep a s = sequencerStep a s') (h : RunsTo a s' t) :
    RunsTo a s t := by
  obtain ⟨n, rfl⟩ := h
  refine ⟨n, ?_⟩
  simp only [List.replicate_succ, runSequencer, List.foldl_cons, heq]

theorem sequencerStep_plain {a : Bool} {s : State} (hs : Running s) {m : Micro} (hm : isPlain a m = true)
    (rest : List Micro) : sequencerStep a (advance (m :: rest) s) = advance rest (microBody a m s) := by
  have hhead : resolveHead 4 s (m :: rest) = m :: rest := by rw [resolveHead, expand_of_plain hm]
  rw [advance_eq_atScript (ne_unmarked_of_plain hm)]
  exact sequencerStep_atScript hs hm hhead

/-- A plain micro-step is its body. -/
theorem RunsTo.body {a : Bool} {s t : State} (hs : Running s) {m : Micro} (hm : isPlain a m = true) {rest : List Micro}
    (h : advance rest (microBody a m s) = t ∨ RunsTo a (advance rest (microBody a m s)) t) :
    RunsTo a (advance (m :: rest) s) t := by
  have hstep := sequencerStep_plain hs hm rest
  obtain rfl | h := h
  · rw [← hstep]; exact .step a _
  · exact .cons (by rwa [hstep])

/-- Plain micro-steps one after the other are their bodies. -/
theorem RunsTo.bodies {a : Bool} {ms : List Micro} (hms : ∀ m ∈ ms, isPlain a m = true) {s t : State} (hs : Running s)
    {rest : List Micro} (h : RunsTo a (advance rest (bodies a ms s)) t) : RunsTo a (advance (ms ++ rest) s) t := by
  induction ms generalizing s with
  | nil => exact h
  | cons m ms ih =>
    exact .body hs (hms m List.mem_cons_self)
      (.inr (ih (fun x hx => hms x (List.mem_cons_of_mem m hx)) (hs.microBody a m) h))

/-- A control line runs as what it stands for. -/
theorem RunsTo.control {a : Bool} {s t : State} (hs : Running s) {m : Micro} {l rest : List Micro}
    (he : expand s m = some l) (hres : ResolvesIn a 3 s (l ++ rest))
    (hnext : ∀ x ∈ (l ++ rest).head?, x ≠ .setProgrammed ∧ ∀ e, x ≠ .finish e)
    (h : RunsTo a (advance (l ++ rest) s) t) : RunsTo a (advance (m :: rest) s) t := by
  have hm : m ≠ .setProgrammed ∧ ∀ e, m ≠ .finish e := by refine ⟨?_, fun e => ?_⟩ <;> rintro rfl <;> cases he
  obtain ⟨x, rest', hx, hhead⟩ := hres
  refine .of_step_eq ?_ h
  have hcontrol : resolveHead 4 s (m :: rest) = x :: rest' := by rw [resolveHead, he]; exact hhead 3 le_rfl
  rw [advance_eq_atScript hm, sequencerStep_atScript hs hx hcontrol]
  cases hl : l ++ rest with
  | nil =>
    have := hhead 3 le_rfl
    rw [hl] at this
    cases this
  | cons y tail =>
    rw [advance_eq_atScript (hnext y (by rw [hl]; rfl)), ← hl, sequencerStep_atScript hs hx (hhead 4 (by omega))]

end Sys2Proof.Machine
end

section
/-! What every micro-step of a clock op's run keeps (40_clocktree.md R91, R96): a PLL that runs at the target's source frequency is
not touched, and the source changes only from or to the crystal. -/

namespace Sys2Proof.Machine

/-! ### The fast path -/

/-- The event is none of PLL `q`: not its power, its divider, its calibration start, poll or stop. -/
def NotOfPll (q : PllId) (e : Event) : Prop :=
  (∀ v, e ≠ .w (.pllPwr q) v) ∧ (∀ v, e ≠ .w (.pllDiv q) v) ∧ (∀ v, e ≠ .b (.calStart q) v) ∧
    (∀ v, e ≠ .r (.calDone q) v) ∧ ∀ v, e ≠ .b (.calStop q) v

/-- The items of the run of a clock op with the target `k`, where its PLL `q` needs no bringing up. -/
def quietFor (q : PllId) (k : ClockConfig) : Micro → Prop
  | .setConfig t => t = k
  | .bringUp t _ => t = k
  | .dropPll p => p ≠ q
  | .applyWrite _ f => f = .muxSel ∨ ∃ b, f = .div b
  | .apply _ | .applyEnd _ | .stepFive _ _ | .finish _ => True
  | _ => False

theorem leftPll_eq_some {cur t : ClockConfig} {p : PllId} :
    leftPll cur t = some p ↔ cur.source = .pll p ∧ t.source ≠ .pll p := by
  unfold leftPll
  cases cur.source with
  | pll id =>
    dsimp only
    split
    next h => grind
    next h => grind
  | _ => simp

/-- A control line of the run stands for items of the run: step 3 for nothing, since the PLL runs at its frequency (R91). -/
theorem quietFor_expand {q : PllId} {k : ClockConfig} {s : State} (hk : k.source = .pll q)
    (hon : pllsOf s q = (true, k.sourceFreqMhz)) {m : Micro} {l : List Micro} (he : expand s m = some l)
    (hm : quietFor q k m) : ∀ x ∈ l, quietFor q k x := by
  obtain ⟨henabled, hfreq⟩ := Prod.mk.inj hon
  cases m with
  | setConfig t =>
    obtain rfl : t = k := hm
    cases he
    intro x hx
    simp only [setConfigScript, List.mem_append, hk] at hx
    obtain ((hx | hx) | hx) | hx := hx
    · split at hx
      · obtain rfl := List.mem_singleton.1 hx; trivial
      · cases hx
    · split at hx
      next p hp =>
        obtain rfl := List.mem_singleton.1 hx
        rintro rfl
        exact (leftPll_eq_some.1 hp).2 hk
      next => cases hx
    · obtain rfl := List.mem_singleton.1 hx; rfl
    · obtain rfl | hx := List.mem_cons.1 hx
      · trivial
      · obtain rfl := List.mem_singleton.1 hx; trivial
  | bringUp t o =>
    obtain rfl : t = k := hm
    cases he
    simp [bringUpScript, hk, henabled, hfreq]
  | apply t =>
    cases he
    intro x hx
    obtain hx | hx := List.mem_append.1 hx
    · obtain ⟨f, hf, rfl⟩ := List.mem_map.1 hx
      obtain rfl | ⟨b, -, rfl⟩ := (mem_applyOrder _ _ _ f).1 hf
      · exact .inl rfl
      · exact .inr ⟨b, rfl⟩
    · obtain rfl := List.mem_singleton.1 hx; trivial
  | restoreSaved | program => cases hm
  | _ => cases he

/-- No item of the run has an event of the target's PLL. -/
theorem quietFor_event {q : PllId} {k : ClockConfig} {m : Micro} (hm : quietFor q k m) (a : Bool) (s : State) :
    ∀ e ∈ microEvent a s m, NotOfPll q e := by
  cases m with
  | applyWrite t f =>
    rintro e ⟨⟩
    obtain rfl | ⟨b, rfl⟩ := hm <;> simp [NotOfPll]
  | dropPll p =>
    have hp : p ≠ q := hm
    simp only [microEvent, disableEvent]
    split
    · rintro e ⟨⟩; simp [NotOfPll, hp]
    · rintro e ⟨⟩
  | setConfig | bringUp | apply | applyEnd | stepFive | finish => rintro e ⟨⟩
  | _ => cases hm

theorem quietFor_pll {q : PllId} {k : ClockConfig} {s : State} {m : Micro} (he : expand s m = none) (hm : quietFor q k m)
    (rest : List Micro) (a : Bool) : pllsOf (runMicro m rest a s) q = pllsOf s q := by
  have hheld : holdsPll m := by
    cases m with
    | pllEnable | calStop => cases hm
    | _ => trivial
  have hview : viewAfter k (pllsOf s) m q = pllsOf s q := by
    cases m with
    | dropPll p => exact if_neg (Ne.symm hm)
    | applyWrite | applyEnd | stepFive | finish => rfl
    | setConfig | bringUp | apply => cases he
    | _ => cases hm
  obtain hview' | ⟨hsame, -⟩ := pllsOf_runMicro k he hheld rest a
  · rw [hview', hview]
  · rw [hsame]

/-- Along the run from a state with the trace `trace`: the PLL is left as it is and none of its events is emitted. -/
structure QuietRun (q : PllId) (k : ClockConfig) (trace : List Event) (u : State) : Prop where
  script : ∀ m ∈ u.seq.script, quietFor q k m
  on : pllsOf u q = (true, k.sourceFreqMhz)
  events : ∃ l, u.trace = trace ++ l ∧ ∀ e ∈ l, NotOfPll q e

theorem QuietRun.sequencerStep {q : PllId} {k : ClockConfig} {trace : List Event} {u : State} (h : QuietRun q k trace u)
    (hk : k.source = .pll q) (a : Bool) : QuietRun q k trace (sequencerStep a u) := by
  have hscript := sequencerStep_script_forall (fun m l he hm => quietFor_expand hk h.on he hm) h.script a
  obtain hsame | ⟨m, rest, -, -, hhead, hstep⟩ := sequencerStep_cases a u
  · rwa [hsame]
  have hresolved : ∀ x ∈ m :: rest, quietFor q k x := by
    rw [← hhead]
    exact resolveHead_forall (fun m l he hm => quietFor_expand hk h.on he hm) 4 h.script
  have hm := hresolved m List.mem_cons_self
  rw [hstep] at hscript ⊢
  cases he : expand u m with
  | some l => rwa [runMicro_of_expand he]
  | none =>
    obtain ⟨l, htrace, hl⟩ := h.events
    refine ⟨hscript, (quietFor_pll he hm rest a).trans h.on, l ++ (microEvent a u m).toList, ?_, fun e hmem => ?_⟩
    · rw [runMicro_trace, htrace, List.append_assoc]
    · obtain hmem | hmem := List.mem_append.1 hmem
      · exact hl e hmem
      · exact quietFor_event hm a u e (Option.mem_toList.1 hmem)

/-- PLL_CFG_CAL of a PLL that the checks let pass starts the handshake (41_pll.md R104). -/
theorem exec_pllCfgCal {id : PllId} {x g : Word} {s : State} (hready : Ready s) (hid : pllIdOk s.cfg id = true)
    (hx : 1 ≤ x.toNat) (hg : 1 ≤ g.toNat) (hon : (pllAt s id).enabled = true) (hc : s.clk.cur.source = .crystal) :
    exec (.pllCfgCal id x g) s =
      .next (start [.calDivide id x g, .calStart id, .calPoll id none, .calStop id g, .finish .plain] s) :=
  sequenced_started hready (by simp [firstFailing_cons, hid, hx, hg, hon, hc]) (fun s => s) _

/-- Settles O14: `QuietRun` along the run of the clock op; the calibration invariant says what `cur_pll_freq_mhz` is; and the
four micro-steps of PLL_CFG_CAL are their bodies. -/
theorem fastPathSkipsTheHandshake : Obligations.FastPathSkipsTheHandshake := by
  refine ⟨fun i s t k q answers hready htarget hk henabled hfreq hexec => ?_, fun s k q hinv hlast => ?_,
    fun id x g s hready hid hx hg hon hc _ => ?_⟩
  · rw [exec_clockOp hready htarget] at hexec
    cases hexec
    have hstart : QuietRun q k s.trace (start (clockScript k) (discardParams s)) := by
      refine ⟨?_, ?_, [], by simp, by simp⟩
      · rw [start_clockScript]; simp [clockScript, quietFor]
      · simp [pllsOf, henabled, hfreq]
    exact (runSequencer_keeps (fun a u hu => hu.sequencerStep hk a) answers hstart).events
  · rw [← hinv.current, hlast]
  · refine ⟨_, exec_pllCfgCal hready hid hx hg hon hc, fun a b z => ?_⟩
    have hrun : Running (setSeq { busy := true, owner := s.env.picked, script := [], result := none }
        (setMbox s.env.picked { mboxAt s s.env.picked with pending := false, running := true } s)) := ⟨rfl, hready.1⟩
    simp only [runSequencer, List.foldl_cons, List.foldl_nil, start]
    rw [sequencerStep_plain hrun rfl, sequencerStep_plain (hrun.microBody ..) rfl,
      sequencerStep_plain ((hrun.microBody ..).microBody ..) rfl,
      sequencerStep_plain (((hrun.microBody ..).microBody ..).microBody ..) rfl]
    simp [microBody, bit]

/-! ### Through the crystal -/

/-- The configuration a script item applies by itself. -/
def appliedBy : Micro → Option ClockConfig
  | .apply t | .applyEnd t => some t
  | _ => none

/-- The source after a script item. -/
def sourceAfter (src : ClockSource) : Micro → ClockSource
  | .setConfig t | .apply t | .applyEnd t => t.source
  | _ => src

/-- Of the sources before and after, one is the crystal or they are the same (R96). -/
def GentleChange (src src' : ClockSource) : Prop := src' = src ∨ src' = .crystal ∨ src = .crystal

/-- Every change of the source that a script makes is gentle; the script is a clock op's, so it goes back to no saved
configuration. -/
def gentle : ClockSource → List Micro → Prop
  | _, [] => True
  | src, m :: rest =>
    m ≠ .restoreSaved ∧ (∀ t ∈ appliedBy m, GentleChange src t.source) ∧ gentle (sourceAfter src m) rest

/-- An item that leaves the source alone. -/
def keepsSource (m : Micro) : Prop := m ≠ .restoreSaved ∧ appliedBy m = none ∧ ∀ src, sourceAfter src m = src

theorem gentle_append_of_keepsSource {l : List Micro} (hl : ∀ m ∈ l, keepsSource m) {src : ClockSource} {rest : List Micro}
    (h : gentle src rest) : gentle src (l ++ rest) := by
  induction l with
  | nil => exact h
  | cons m l ih =>
    obtain ⟨hne, hnone, hafter⟩ := hl m List.mem_cons_self
    refine ⟨hne, by simp [hnone], ?_⟩
    rw [hafter]
    exact ih fun x hx => hl x (List.mem_cons_of_mem m hx)

theorem goesThroughCrystal_eq_false {s : State} {t : ClockConfig} (h : goesThroughCrystal s t = false) :
    s.clk.cur.source = .crystal ∨ s.clk.cur.source = t.source ∧ needsReconf s t = false := by
  simp only [goesThroughCrystal, Bool.and_eq_false_iff, decide_eq_false_iff_not, Bool.or_eq_false_iff] at h
  grind

/-- `set_config(t)` (R90): where it applies the target from another source than the crystal's, it has gone through the crystal. -/
theorem gentle_setConfigScript {s : State} {t : ClockConfig} {rest : List Micro} (h : gentle t.source rest) :
    gentle s.clk.cur.source (setConfigScript s t ++ rest) := by
  have hend {src : ClockSource} (hsrc : GentleChange src t.source) :
      gentle src ([.apply t, .stepFive s.clk.cur.freqMhz t.freqMhz] ++ rest) :=
    ⟨by simp, by simpa [appliedBy] using hsrc, by simp, by simp [appliedBy], h⟩
  have hdrop : ∀ m ∈ (match leftPll s.clk.cur t with | some p => [Micro.dropPll p] | none => []), keepsSource m := by
    split <;> simp [keepsSource, appliedBy, sourceAfter]
  have hbring : ∀ m ∈ (match t.source with | .pll _ => [Micro.bringUp t s.clk.cur.freqMhz] | _ => []), keepsSource m := by
    split <;> simp [keepsSource, appliedBy, sourceAfter]
  dsimp only [setConfigScript]
  rw [List.append_assoc, List.append_assoc, List.append_assoc]
  cases hthrough : goesThroughCrystal s t with
  | true =>
    refine ⟨by simp, by simp [appliedBy, GentleChange, xtalNative], ?_⟩
    exact gentle_append_of_keepsSource hdrop (gentle_append_of_keepsSource hbring (hend (.inr (.inr rfl))))
  | false =>
    have hsrc : GentleChange s.clk.cur.source t.source :=
      (goesThroughCrystal_eq_false hthrough).elim (fun h => .inr (.inr h)) (fun h => .inl h.1.symm)
    exact gentle_append_of_keepsSource hdrop (gentle_append_of_keepsSource hbring (hend hsrc))

theorem gentle_resolveHead (n : Nat) {s : State} {l : List Micro} (h : gentle s.clk.cur.source l) :
    gentle s.clk.cur.source (resolveHead n s l) := by
  refine resolveHead_keeps (P := gentle s.clk.cur.source) (fun m l rest he hm => ?_) n h
  obtain ⟨hne, happlied, hrest⟩ := hm
  cases m with
  | setConfig t => cases he; exact gentle_setConfigScript hrest
  | restoreSaved => exact absurd rfl hne
  | bringUp t o =>
    cases he
    refine gentle_append_of_keepsSource (fun x hx => ?_) hrest
    unfold bringUpScript at hx
    split at hx
    · split_ifs at hx <;> simp at hx <;> grind [keepsSource, appliedBy, sourceAfter]
    · cases hx
  | apply t =>
    cases he
    rw [applyScript, List.append_assoc]
    refine gentle_append_of_keepsSource (fun x hx => ?_) ⟨by simp, happlied, hrest⟩
    obtain ⟨f, -, rfl⟩ := List.mem_map.1 hx
    exact ⟨by simp, rfl, fun _ => rfl⟩
  | program =>
    cases he
    refine gentle_append_of_keepsSource (fun x hx => ?_) hrest
    obtain hx | hx := List.mem_append.1 hx
    · obtain ⟨f, -, rfl⟩ := List.mem_map.1 hx
      exact ⟨by simp, rfl, fun _ => rfl⟩
    · obtain rfl := List.mem_singleton.1 hx
      exact ⟨by simp, rfl, fun _ => rfl⟩
  | _ => cases he

theorem gentle_advance {src : ClockSource} (l : List Micro) (u : State) (h : gentle src l) :
    gentle src (advance l u).seq.script := by
  induction l, u using advance.induct with
  | case1 rest u ih => exact ih h.2.2
  | case2 e rest u => rw [advance_finish, finishOp_seq]; trivial
  | case3 l u h1 h2 => simpa [advance] using h

theorem sourceAfter_of_waits {m : Micro} (h : waits m = true) (src : ClockSource) : sourceAfter src m = src := by
  cases m with
  | calPoll | pollStatus | pollAux | setProgrammed | finish => rfl
  | _ => cases h

/-- A micro-step of a script whose changes are gentle makes a gentle change, and leaves such a script. -/
theorem gentle_sequencerStep {s : State} (h : gentle s.clk.cur.source s.seq.script) (a : Bool) :
    gentle (sequencerStep a s).clk.cur.source (sequencerStep a s).seq.script ∧
      GentleChange s.clk.cur.source (sequencerStep a s).clk.cur.source := by
  obtain hsame | ⟨m, rest, -, -, hhead, hstep⟩ := sequencerStep_cases a s
  · rw [hsame]; exact ⟨h, .inl rfl⟩
  have hl := gentle_resolveHead 4 h
  rw [hhead] at hl
  rw [hstep]
  cases he : expand s m with
  | some l => rw [runMicro_of_expand he]; exact ⟨h, .inl rfl⟩
  | none =>
    have ⟨_, happlied, hrest⟩ := hl
    have hcur : (runMicro m rest a s).clk.cur.source = sourceAfter s.clk.cur.source m ∧
        GentleChange s.clk.cur.source (sourceAfter s.clk.cur.source m) := by
      obtain ⟨hcur, -⟩ | ⟨t, rfl, hcur, -⟩ := runMicro_applied m rest a s
      · rw [hcur]
        cases m with
        | applyEnd t =>
          obtain rfl : t = s.clk.cur := by rw [← hcur]; simp [runMicro]
          exact ⟨rfl, .inl rfl⟩
        | setConfig | apply => cases he
        | _ => exact ⟨rfl, .inl rfl⟩
      · rw [hcur]; exact ⟨rfl, happlied t rfl⟩
    refine ⟨?_, by rw [hcur.1]; exact hcur.2⟩
    rw [hcur.1]
    obtain ⟨l, u, hgo, rfl | ⟨hwaits, rfl⟩⟩ | ⟨-, hnil⟩ := runMicro_goesOn he rest a
    · rw [hgo]; exact gentle_advance l u hrest
    · rw [hgo, sourceAfter_of_waits hwaits]; exact gentle_advance _ u hl
    · rw [hnil]; trivial

/-- Settles O17: the script of a clock op changes the source gently, and so do its micro-steps. -/
theorem switchPassesThroughCrystal : Obligations.SwitchPassesThroughCrystal := by
  intro i s t k answers a hready htarget hexec
  rw [exec_clockOp hready htarget] at hexec
  cases hexec
  have hstart : gentle (start (clockScript k) (discardParams s)).clk.cur.source
      (start (clockScript k) (discardParams s)).seq.script := by
    rw [start_clockScript]
    simp [clockScript, gentle, appliedBy]
  have hrun := runSequencer_keeps (Inv := fun u => gentle u.clk.cur.source u.seq.script)
    (fun a u hu => (gentle_sequencerStep hu a).1) answers hstart
  exact (gentle_sequencerStep hrun a).2

end Sys2Proof.Machine
end

section
/-! The five steps of `set_config` as state functions (40_clocktree.md R87, R90, R91): `applied`, `left` and the bodies of
step 3, what each does to the clock fields, the PLLs and the trace, and the run through them. -/

namespace Sys2Proof.Machine

/-- Everything that no step of `set_config` touches. -/
structure SameOps (s t : State) : Prop where
  cfg : t.cfg = s.cfg
  mbox : t.mbox = s.mbox
  seq : t.seq = s.seq
  slp : t.slp = s.slp
  fault : t.fault = s.fault
  env : t.env = s.env

theorem SameOps.refl (s : State) : SameOps s s := ⟨rfl, rfl, rfl, rfl, rfl, rfl⟩

theorem SameOps.trans {s t u : State} (h : SameOps s t) (h' : SameOps t u) : SameOps s u :=
  ⟨h'.cfg.trans h.cfg, h'.mbox.trans h.mbox, h'.seq.trans h.seq, h'.slp.trans h.slp, h'.fault.trans h.fault,
    h'.env.trans h.env⟩

theorem microBody_sameOps (a : Bool) (m : Micro) (s : State) : SameOps s (microBody a m s) := by
  refine ⟨?_, ?_, microBody_seq a m s, ?_, microBody_fault a m s, ?_⟩ <;> cases m <;> simp [microBody]

theorem bodies_sameOps (a : Bool) (ms : List Micro) (s : State) : SameOps s (bodies a ms s) := by
  induction ms generalizing s with
  | nil => exact .refl s
  | cons m ms ih => exact (microBody_sameOps a m s).trans (ih _)

theorem SameOps.running {s t : State} (h : SameOps s t) (hs : Running s) : Running t := by
  unfold Running; rw [h.seq, h.fault]; exact hs

/-! ### `apply` -/

/-- The state after `apply(t)` (R87). -/
def applied (t : ClockConfig) (s : State) : State :=
  { s with
    clk := { s.clk with
      cur := t, state := stateOf t.source, hw := (applyOrder s.cfg s.clk.cur t).foldl (hwWrite s.cfg t) s.clk.hw },
    trace := s.trace ++ applyEvents s.cfg s.clk.cur t }

theorem applied_sameOps (t : ClockConfig) (s : State) : SameOps s (applied t s) := ⟨rfl, rfl, rfl, rfl, rfl, rfl⟩

/-- The hardware fields after a list of writes: a field holds the target's value exactly when it is in the list. -/
theorem foldl_hwWrite (cfg : Cfg) (t : ClockConfig) (l : List RegField) (h : HwClock) :
    (l.foldl (hwWrite cfg t) h).mux = (if .muxSel ∈ l then t.source else h.mux) ∧
    (l.foldl (hwWrite cfg t) h).cpuDiv = (if .div .cpu ∈ l then t.divider else h.cpuDiv) ∧
    ∀ b, busDiv (l.foldl (hwWrite cfg t) h).busDiv b =
      if .div b ∈ l then busDiv (busDivs cfg t) b else busDiv h.busDiv b := by
  induction l generalizing h with
  | nil => simp
  | cons f l ih =>
    obtain ⟨hmux, hcpu, hbus⟩ := ih (hwWrite cfg t h f)
    rw [List.foldl_cons]
    refine ⟨hmux.trans ?_, hcpu.trans ?_, fun b => (hbus b).trans ?_⟩
    · cases f with
      | div c => cases c <;> simp [hwWrite]
      | _ => simp [hwWrite]
    · cases f with
      | div c => cases c <;> simp [hwWrite]
      | _ => simp [hwWrite]
    · cases f with
      | div c => cases c <;> cases b <;> simp [hwWrite, setBusDiv, busDiv]
      | _ => simp [hwWrite]

/-- `apply` writes every present field, so that all hold the target's values, whatever they held (R87). -/
theorem applied_hw (t : ClockConfig) (s : State) :
    (applied t s).clk.hw.mux = t.source ∧ (applied t s).clk.hw.cpuDiv = t.divider ∧
      ∀ b ∈ chain s.cfg, busDiv (applied t s).clk.hw.busDiv b = busDiv (busDivs s.cfg t) b := by
  obtain ⟨hmux, hcpu, hbus⟩ := foldl_hwWrite s.cfg t (applyOrder s.cfg s.clk.cur t) s.clk.hw
  have hwritten {b : Bus} (hb : b ∈ chain s.cfg) : RegField.div b ∈ applyOrder s.cfg s.clk.cur t :=
    (mem_applyOrder _ _ _ _).2 (.inr ⟨b, hb, rfl⟩)
  have hcpuMem : Bus.cpu ∈ chain s.cfg := by simp [chain, busLimit]
  refine ⟨hmux.trans (if_pos ((mem_applyOrder _ _ _ _).2 (.inl rfl))), hcpu.trans (if_pos (hwritten hcpuMem)), fun b hb => ?_⟩
  exact (hbus b).trans (if_pos (hwritten hb))

theorem bodies_applyWrites (a : Bool) (t : ClockConfig) (fs : List RegField) (s : State) :
    bodies a (fs.map (Micro.applyWrite t)) s =
      { s with
        clk := { s.clk with hw := fs.foldl (hwWrite s.cfg t) s.clk.hw },
        trace := s.trace ++ fs.map fun f => .w f (applyValue s.cfg t f) } := by
  induction fs generalizing s with
  | nil => simp
  | cons f fs ih =>
    rw [List.map_cons, bodies_cons, ih]
    simp [microBody, doApplyWrite, setClk, emit]

theorem bodies_applyScript (a : Bool) (t : ClockConfig) (s : State) :
    bodies a (applyScript s.cfg s.clk.cur t) s = applied t s := by
  rw [applyScript, bodies_append, bodies_applyWrites]
  rfl

theorem applyScript_plain (a : Bool) (cfg : Cfg) (cur t : ClockConfig) : ∀ m ∈ applyScript cfg cur t, isPlain a m = true := by
  intro m hm
  obtain hm | hm := List.mem_append.1 hm
  · obtain ⟨f, -, rfl⟩ := List.mem_map.1 hm; rfl
  · obtain rfl := List.mem_singleton.1 hm; rfl

theorem applyScript_cons (cfg : Cfg) (cur t : ClockConfig) (rest : List Micro) :
    ∃ m ms, applyScript cfg cur t ++ rest = m :: ms ∧ ∀ a, isPlain a m = true := by
  cases horder : applyOrder cfg cur t with
  | nil => exact ⟨.applyEnd t, rest, by simp [applyScript, horder], fun _ => rfl⟩
  | cons f fs => exact ⟨.applyWrite t f, _, by simp [applyScript, horder]; rfl, fun _ => rfl⟩

theorem resolvesIn_apply (a : Bool) (n : Nat) (s : State) (t : ClockConfig) (rest : List Micro) :
    ResolvesIn a (n + 1) s (.apply t :: rest) := by
  refine ResolvesIn.control (l := applyScript s.cfg s.clk.cur t) rfl ?_
  obtain ⟨m, ms, hcons, hm⟩ := applyScript_cons s.cfg s.clk.cur t rest
  rw [hcons]
  exact resolvesIn_plain (hm a) n s ms

/-- `apply(t)` runs to its end. -/
theorem RunsTo.apply {a : Bool} {s u : State} (hs : Running s) {t : ClockConfig} {rest : List Micro}
    (h : RunsTo a (advance rest (applied t s)) u) : RunsTo a (advance (.apply t :: rest) s) u := by
  have hres : ResolvesIn a 3 s (applyScript s.cfg s.clk.cur t ++ rest) := by
    obtain ⟨m, ms, hcons, hm⟩ := applyScript_cons s.cfg s.clk.cur t rest
    rw [hcons]
    exact resolvesIn_plain (hm a) 3 s ms
  refine RunsTo.control hs (l := applyScript s.cfg s.clk.cur t) rfl hres ?_
    (RunsTo.bodies (applyScript_plain a _ _ _) hs (by rwa [bodies_applyScript]))
  obtain ⟨m, ms, hcons, hm⟩ := applyScript_cons s.cfg s.clk.cur t rest
  rw [hcons]
  rintro x ⟨⟩
  exact ne_unmarked_of_plain (hm a)

/-! ### Steps 1 and 2: leaving the source -/

/-- The state after step 1 of `set_config(k)` (R90): on the crystal where the op goes through it. -/
def onBase (s : State) (k : ClockConfig) : State :=
  if goesThroughCrystal s k then applied (xtalNative s.cfg) s else s

/-- The state after steps 1 and 2 of `set_config(k)` (R90). -/
def left (s : State) (k : ClockConfig) : State :=
  match leftPll s.clk.cur k with
  | some p => doDropPll p (onBase s k)
  | none => onBase s k

theorem onBase_sameOps (s : State) (k : ClockConfig) : SameOps s (onBase s k) := by
  unfold onBase
  split
  · exact applied_sameOps _ s
  · exact .refl s

theorem onBase_plls (s : State) (k : ClockConfig) :
    (∀ j, pllAt (onBase s k) j = pllAt s j) ∧ (onBase s k).lastCalPll = s.lastCalPll ∧
      (onBase s k).curPllFreqMhz = s.curPllFreqMhz := by
  unfold onBase
  split <;> exact ⟨fun _ => rfl, rfl, rfl⟩

theorem onBase_cur (s : State) (k : ClockConfig) : (onBase s k).clk.cur = applyBase s k := by
  unfold onBase applyBase
  split <;> rfl

theorem left_sameOps (s : State) (k : ClockConfig) : SameOps s (left s k) := by
  unfold left
  split
  · exact (onBase_sameOps s k).trans (microBody_sameOps true (.dropPll _) _)
  · exact onBase_sameOps s k

theorem left_clk (s : State) (k : ClockConfig) : (left s k).clk = (onBase s k).clk := by
  unfold left
  split
  · exact doDropPll_clk _ _
  · rfl

theorem pllAt_doDropPll (p j : PllId) (s : State) :
    pllAt (doDropPll p s) j =
      if j = p ∧ (pllAt s p).consumerCount = 0 then
        { pllAt s p with enabled := false, configuredFreqMhz := 0, calState := .calIdle }
      else pllAt s j := by
  unfold doDropPll
  by_cases hcount : (pllAt s p).consumerCount = 0
  · rw [if_pos hcount, pllAt_pllDisableBody]
    by_cases hheld : p.toNat < 8
    · simp [hcount, hheld]
    · by_cases hj : j = p
      · simp [hj, hheld, pllAt_beyond hheld, Pll.reset]
      · simp [hj]
  · rw [if_neg hcount, if_neg fun h => hcount h.2]

theorem doDropPll_curPllFreqMhz (p : PllId) (s : State) :
    (doDropPll p s).curPllFreqMhz =
      if s.lastCalPll = p ∧ (pllAt s p).consumerCount = 0 then 0 else s.curPllFreqMhz := by
  unfold doDropPll
  by_cases hcount : (pllAt s p).consumerCount = 0
  · simp [hcount, pllDisableBody_curPllFreqMhz]
  · rw [if_neg hcount, if_neg fun h => hcount h.2]

/-- Only the PLL that is left, and only where no consumer holds it, is disabled (R90, 41_pll.md R106). -/
theorem pllAt_left (s : State) (k : ClockConfig) (j : PllId) :
    pllAt (left s k) j =
      if leftPll s.clk.cur k = some j ∧ (pllAt s j).consumerCount = 0 then
        { pllAt s j with enabled := false, configuredFreqMhz := 0, calState := .calIdle }
      else pllAt s j := by
  obtain ⟨hplls, -, -⟩ := onBase_plls s k
  unfold left
  cases leftPll s.clk.cur k with
  | none => simp [hplls]
  | some p =>
    dsimp only
    rw [pllAt_doDropPll, hplls, hplls]
    by_cases hj : j = p
    · subst hj; simp
    · simp [hj, Ne.symm hj]

theorem left_lastCalPll (s : State) (k : ClockConfig) : (left s k).lastCalPll = s.lastCalPll := by
  obtain ⟨-, hlast, -⟩ := onBase_plls s k
  unfold left
  split
  · rw [doDropPll_lastCalPll, hlast]
  · exact hlast

theorem left_curPllFreqMhz (s : State) (k : ClockConfig) :
    (left s k).curPllFreqMhz =
      if leftPll s.clk.cur k = some s.lastCalPll ∧ (pllAt s s.lastCalPll).consumerCount = 0 then 0
      else s.curPllFreqMhz := by
  obtain ⟨hplls, hlast, hfreq⟩ := onBase_plls s k
  unfold left
  cases leftPll s.clk.cur k with
  | none => simp [hfreq]
  | some p =>
    dsimp only
    rw [doDropPll_curPllFreqMhz, hlast, hplls, hfreq]
    by_cases hp : s.lastCalPll = p
    · subst hp; simp
    · simp [hp, Ne.symm hp]

theorem left_trace (s : State) (k : ClockConfig) : (left s k).trace = s.trace ++ leaveEvents s k := by
  obtain ⟨hplls, -, -⟩ := onBase_plls s k
  have hbase : (onBase s k).trace =
      s.trace ++ if goesThroughCrystal s k then applyEvents s.cfg s.clk.cur (xtalNative s.cfg) else [] := by
    unfold onBase
    split <;> simp [applied]
  unfold left leaveEvents
  cases leftPll s.clk.cur k with
  | none => simp [hbase]
  | some p =>
    dsimp only
    rw [doDropPll_trace, hbase, disableEvent, hplls]
    by_cases hcount : (pllAt s p).consumerCount = 0
    · rw [if_pos hcount, if_pos hcount]; simp
    · rw [if_neg hcount, if_neg hcount]; simp

/-- The items of `set_config(k)` after steps 1 and 2 (R90). -/
def entryScript (k : ClockConfig) (oldMhz : Word) : List Micro :=
  (match k.source with
    | .pll _ => [.bringUp k oldMhz]
    | _ => []) ++
  [.apply k, .stepFive oldMhz k.freqMhz]

theorem setConfigScript_eq (s : State) (k : ClockConfig) :
    setConfigScript s k =
      (if goesThroughCrystal s k then [.apply (xtalNative s.cfg)] else []) ++
        ((leftPll s.clk.cur k).toList.map Micro.dropPll ++ entryScript k s.clk.cur.freqMhz) := by
  dsimp only [setConfigScript, entryScript]
  cases leftPll s.clk.cur k <;> cases k.source <;> simp

/-- A PLL is left only through the crystal (R90). -/
theorem leftPll_eq_none {s : State} {k : ClockConfig} (h : goesThroughCrystal s k = false) : leftPll s.clk.cur k = none := by
  cases hleft : leftPll s.clk.cur k with
  | none => rfl
  | some p =>
    obtain ⟨hcur, hne⟩ := leftPll_eq_some.1 hleft
    obtain hcrystal | ⟨hsame, -⟩ := goesThroughCrystal_eq_false h
    · rw [hcur] at hcrystal; cases hcrystal
    · exact absurd (hsame.symm.trans hcur) hne

/-- Step 3 stands for plain micro-steps, or for none (R91). -/
theorem bringUpScript_cons (s : State) (k : ClockConfig) (o : Word) :
    bringUpScript s k o = [] ∨ ∃ m ms, bringUpScript s k o = m :: ms ∧ ∀ a, isPlain a m = true := by
  unfold bringUpScript
  split
  · split_ifs
    · exact .inr ⟨_, _, rfl, fun _ => rfl⟩
    · exact .inl rfl
    · exact .inr ⟨_, _, rfl, fun _ => rfl⟩
    · exact .inr ⟨_, _, rfl, fun _ => rfl⟩
  · exact .inl rfl

theorem resolvesIn_bringUpScript (a : Bool) (n : Nat) (s : State) (k t : ClockConfig) (o : Word) (rest : List Micro) :
    ResolvesIn a (n + 1) s (bringUpScript s k o ++ .apply t :: rest) := by
  obtain hnil | ⟨m, ms, hcons, hm⟩ := bringUpScript_cons s k o
  · rw [hnil]; exact resolvesIn_apply a n s t rest
  · rw [hcons]; exact resolvesIn_plain (hm a) (n + 1) s _

theorem resolvesIn_entryScript (a : Bool) (s : State) (k : ClockConfig) (o : Word) (rest : List Micro) :
    ResolvesIn a 3 s (entryScript k o ++ rest) := by
  unfold entryScript
  split
  · exact ResolvesIn.control rfl (resolvesIn_bringUpScript a 1 s k k o _)
  · exact resolvesIn_apply a 2 s k _

theorem entryScript_head? (k : ClockConfig) (o : Word) (rest : List Micro) :
    ∀ x ∈ (entryScript k o ++ rest).head?, x ≠ .setProgrammed ∧ ∀ e, x ≠ .finish e := by
  unfold entryScript
  split <;> simp

/-- Steps 1 and 2 of `set_config(k)` run to `left`. -/
theorem RunsTo.leave {a : Bool} {s u : State} (hs : Running s) {k : ClockConfig} {rest : List Micro}
    (h : RunsTo a (advance (entryScript k s.clk.cur.freqMhz ++ rest) (left s k)) u) :
    RunsTo a (advance (.setConfig k :: rest) s) u := by
  cases hthrough : goesThroughCrystal s k with
  | false =>
    have hnone := leftPll_eq_none hthrough
    have hscript : setConfigScript s k = entryScript k s.clk.cur.freqMhz := by
      simp [setConfigScript_eq, hthrough, hnone]
    have hleft : left s k = s := by simp [left, onBase, hnone, hthrough]
    rw [hleft] at h
    refine RunsTo.control hs (l := setConfigScript s k) rfl ?_ ?_ ?_
    · rw [hscript]; exact resolvesIn_entryScript a s k _ rest
    · rw [hscript]; exact entryScript_head? k _ rest
    · rwa [hscript]
  | true =>
    have hbase : onBase s k = applied (xtalNative s.cfg) s := by simp [onBase, hthrough]
    have hscript : setConfigScript s k ++ rest = .apply (xtalNative s.cfg) ::
        ((leftPll s.clk.cur k).toList.map Micro.dropPll ++ (entryScript k s.clk.cur.freqMhz ++ rest)) := by
      simp [setConfigScript_eq, hthrough]
    refine RunsTo.control hs (l := setConfigScript s k) rfl ?_ ?_ ?_
    · rw [hscript]; exact resolvesIn_apply a 2 s _ _
    · rw [hscript]; simp
    · rw [hscript]
      refine RunsTo.apply hs ?_
      rw [← hbase]
      have hrun : Running (onBase s k) := (onBase_sameOps s k).running hs
      unfold left at h
      cases hleft : leftPll s.clk.cur k with
      | none => rw [hleft] at h; exact h
      | some p => rw [hleft] at h; exact .body hrun rfl (.inr h)

/-! ### Step 3: bringing the PLL up -/

/-- The part of step 3 before the first poll (41_pll.md R101, R103). -/
def calPrelude (s : State) (q : PllId) (targetMhz : Word) : List Micro :=
  (if (pllAt s q).enabled then [] else [.pllEnable q]) ++ [.calDivide q s.cfg.xtalFreqMhz targetMhz, .calStart q]

/-- The state before the first poll. -/
def calibrating (s : State) (q : PllId) (targetMhz : Word) : State := bodies true (calPrelude s q targetMhz) s

theorem calPrelude_plain (a : Bool) (s : State) (q : PllId) (g : Word) : ∀ m ∈ calPrelude s q g, isPlain a m = true := by
  unfold calPrelude
  split <;> simp [isPlain]

/-- No micro-step before the first poll looks at an answer. -/
theorem bodies_calPrelude (a : Bool) (s : State) (q : PllId) (g : Word) :
    bodies a (calPrelude s q g) s = calibrating s q g := by
  unfold calibrating calPrelude
  split <;> rfl

theorem calibrating_sameOps (s : State) (q : PllId) (g : Word) : SameOps s (calibrating s q g) := bodies_sameOps _ _ s

theorem calibrating_clk (s : State) (q : PllId) (g : Word) : (calibrating s q g).clk = s.clk := by
  unfold calibrating calPrelude
  split <;> simp [microBody]

theorem calibrating_trace (s : State) (q : PllId) (g : Word) :
    (calibrating s q g).trace = s.trace ++ calibrationStart s.cfg q (pllAt s q).enabled g := by
  unfold calibrating calPrelude calibrationStart
  split <;> simp [microBody]

theorem pllAt_calibrating_ne {q j : PllId} (hj : j ≠ q) (s : State) (g : Word) :
    pllAt (calibrating s q g) j = pllAt s j := by
  unfold calibrating calPrelude
  split <;> simp [microBody, pllAt_doCalStart, pllAt_doCalDivide, pllAt_pllEnableBody, hj]

theorem pllAt_calibrating {q : PllId} (hq : q.toNat < 8) (s : State) (g : Word) (j : PllId) :
    pllAt (calibrating s q g) j =
      if j = q then
        { pllAt s q with
          enabled := true, configuredFreqMhz := 0, calState := .calStarted, calPollsLeft := s.cfg.calTimeoutPolls }
      else pllAt s j := by
  by_cases hj : j = q
  · subst hj
    unfold calibrating calPrelude
    split
    next hon => simp [microBody, pllAt_doCalStart, pllAt_doCalDivide, hq, hon]
    next => simp [microBody, pllAt_doCalStart, pllAt_doCalDivide, pllAt_pllEnableBody, hq]
  · rw [if_neg hj, pllAt_calibrating_ne hj]

theorem calibrating_lastCalPll (s : State) (q : PllId) (g : Word) : (calibrating s q g).lastCalPll = s.lastCalPll := by
  unfold calibrating calPrelude
  split <;> simp [microBody]

theorem calibrating_curPllFreqMhz (s : State) (q : PllId) (g : Word) :
    (calibrating s q g).curPllFreqMhz = if s.lastCalPll = q then 0 else s.curPllFreqMhz := by
  unfold calibrating calPrelude
  split
  · exact doCalDivide_curPllFreqMhz q _ g s
  · exact doCalDivide_curPllFreqMhz q _ g (pllEnableBody q s)

theorem needsReconf_iff {k : ClockConfig} {q : PllId} (hk : k.source = .pll q) (s : State) :
    needsReconf s k = true ↔ (pllAt s q).configuredFreqMhz ≠ k.sourceFreqMhz := by
  simp [needsReconf, hk]

theorem bringUpScript_reconf {s : State} {k : ClockConfig} {q : PllId} (hk : k.source = .pll q)
    (hreconf : needsReconf s k = true) (o : Word) :
    bringUpScript s k o = calPrelude s q k.sourceFreqMhz ++ [.calPoll q (some o), .calStop q k.sourceFreqMhz] := by
  rw [needsReconf_iff hk] at hreconf
  simp [bringUpScript, hk, hreconf, calPrelude]

/-- The state after step 3 of `set_config(k)` with the first poll answered 1 (R90, R91). -/
def broughtUp (s : State) (k : ClockConfig) : State := bodies true (bringUpScript s k s.clk.cur.freqMhz) s

/-- The old frequency is for the failure path only (R93). -/
theorem bodies_bringUpScript (s : State) (k : ClockConfig) (o : Word) :
    bodies true (bringUpScript s k o) s = broughtUp s k := by
  unfold broughtUp bringUpScript
  cases k.source with
  | pll q => dsimp only; split_ifs <;> rfl
  | _ => rfl

theorem bringUpScript_plain (s : State) (k : ClockConfig) (o : Word) : ∀ m ∈ bringUpScript s k o, isPlain true m = true := by
  unfold bringUpScript
  cases k.source with
  | pll q => dsimp only; split_ifs <;> simp [isPlain]
  | _ => simp

/-- Step 3 runs to `broughtUp` where the polls answer 1. -/
theorem RunsTo.bringUp {s u : State} (hs : Running s) {k t : ClockConfig} {o : Word} {rest : List Micro}
    (h : RunsTo true (advance (.apply t :: rest) (broughtUp s k)) u) :
    RunsTo true (advance (.bringUp k o :: .apply t :: rest) s) u := by
  refine RunsTo.control hs (l := bringUpScript s k o) rfl (resolvesIn_bringUpScript true 2 s k t o rest) ?_
    (RunsTo.bodies (bringUpScript_plain s k o) hs (by rwa [bodies_bringUpScript]))
  obtain hnil | ⟨m, ms, hcons, hm⟩ := bringUpScript_cons s k o
  · rw [hnil]; simp
  · rw [hcons]
    rintro x ⟨⟩
    exact ne_unmarked_of_plain (hm true)

theorem broughtUp_sameOps (s : State) (k : ClockConfig) : SameOps s (broughtUp s k) := bodies_sameOps _ _ s

/-- Without a calibration the PLL is enabled if it was off, and otherwise nothing happens. -/
theorem broughtUp_of_noReconf {s : State} {k : ClockConfig} {q : PllId} (hk : k.source = .pll q)
    (hreconf : needsReconf s k = false) :
    broughtUp s k = if (pllAt s q).enabled then s else pllEnableBody q s := by
  have hfreq : (pllAt s q).configuredFreqMhz = k.sourceFreqMhz := by
    by_contra hne
    exact absurd ((needsReconf_iff hk s).2 hne) (by simp [hreconf])
  simp only [broughtUp, bringUpScript, hk, hfreq, ne_eq, not_true_eq_false, if_false, List.append_nil]
  split <;> rfl

/-- With a calibration the first poll succeeds, and the stop configures the PLL. -/
theorem broughtUp_of_reconf {s : State} {k : ClockConfig} {q : PllId} (hk : k.source = .pll q)
    (hreconf : needsReconf s k = true) :
    broughtUp s k = doCalStop q k.sourceFreqMhz (calPolled q true (calibrating s q k.sourceFreqMhz)) := by
  rw [broughtUp, bringUpScript_reconf hk hreconf, bodies_append]
  rfl

theorem broughtUp_of_noPll {s : State} {k : ClockConfig} (hk : ∀ q, k.source ≠ .pll q) : broughtUp s k = s := by
  unfold broughtUp bringUpScript
  cases hs : k.source with
  | pll q => exact absurd hs (hk q)
  | _ => rfl

theorem broughtUp_clk (s : State) (k : ClockConfig) : (broughtUp s k).clk = s.clk := by
  cases hk : k.source with
  | pll q =>
    cases hreconf : needsReconf s k with
    | true => rw [broughtUp_of_reconf hk hreconf]; simp [calibrating_clk]
    | false => rw [broughtUp_of_noReconf hk hreconf]; split <;> simp
  | _ => rw [broughtUp_of_noPll (by simp [hk])]

theorem broughtUp_trace (s : State) (k : ClockConfig) : (broughtUp s k).trace = s.trace ++ bringUpEvents s k := by
  unfold bringUpEvents
  cases hk : k.source with
  | pll q =>
    dsimp only
    cases hreconf : needsReconf s k with
    | true => rw [broughtUp_of_reconf hk hreconf]; simp [calibrating_trace, bit]
    | false => rw [broughtUp_of_noReconf hk hreconf]; split <;> simp_all
  | _ => rw [broughtUp_of_noPll (by simp [hk])]; simp

/-- The target PLL after step 3 (R90, 41_pll.md R101, R103). -/
theorem pllAt_broughtUp {s : State} {k : ClockConfig} {q : PllId} (hk : k.source = .pll q) (hq : q.toNat < 8) :
    pllAt (broughtUp s k) q =
      if needsReconf s k = true then
        { pllAt s q with
          enabled := true, configuredFreqMhz := k.sourceFreqMhz, calState := .calIdle,
          calPollsLeft := s.cfg.calTimeoutPolls - 1 }
      else { pllAt s q with enabled := true, configuredFreqMhz := k.sourceFreqMhz } := by
  cases hreconf : needsReconf s k with
  | true =>
    rw [broughtUp_of_reconf hk hreconf]
    simp [pllAt_doCalStop, pllAt_calPolled, pllAt_calibrating hq, hq]
  | false =>
    have hfreq : (pllAt s q).configuredFreqMhz = k.sourceFreqMhz := by
      by_contra hne
      exact absurd ((needsReconf_iff hk s).2 hne) (by simp [hreconf])
    rw [broughtUp_of_noReconf hk hreconf]
    cases hon : (pllAt s q).enabled with
    | true => simp [← hfreq, ← hon]
    | false => simp [← hfreq, pllAt_pllEnableBody, hq]

/-- Step 3 touches no other PLL. -/
theorem pllAt_broughtUp_ne {s : State} {k : ClockConfig} {j : PllId} (hj : k.source ≠ .pll j) :
    pllAt (broughtUp s k) j = pllAt s j := by
  cases hk : k.source with
  | pll q =>
    have hne : j ≠ q := by rintro rfl; exact hj hk
    cases hreconf : needsReconf s k with
    | true =>
      rw [broughtUp_of_reconf hk hreconf, pllAt_doCalStop, if_neg fun h => hne h.1, pllAt_calPolled,
        if_neg fun h => hne h.1, pllAt_calibrating_ne hne]
    | false =>
      rw [broughtUp_of_noReconf hk hreconf]
      split <;> simp [pllAt_pllEnableBody, hne]
  | _ => rw [broughtUp_of_noPll (by simp [hk])]

/-- The current PLL frequency after step 3: that of the PLL calibrated, if one was (41_pll.md R103). -/
theorem broughtUp_curPll (s : State) (k : ClockConfig) :
    (∀ q, k.source = .pll q → needsReconf s k = true →
      (broughtUp s k).curPllFreqMhz = k.sourceFreqMhz ∧ (broughtUp s k).lastCalPll = q) ∧
    (needsReconf s k = false →
      (broughtUp s k).curPllFreqMhz = s.curPllFreqMhz ∧ (broughtUp s k).lastCalPll = s.lastCalPll) := by
  refine ⟨fun q hk hreconf => ?_, fun hreconf => ?_⟩
  · rw [broughtUp_of_reconf hk hreconf]; exact ⟨rfl, rfl⟩
  · cases hk : k.source with
    | pll q => rw [broughtUp_of_noReconf hk hreconf]; split <;> exact ⟨rfl, rfl⟩
    | _ => rw [broughtUp_of_noPll (by simp [hk])]; exact ⟨rfl, rfl⟩

end Sys2Proof.Machine
end

section
/-! The whole run of a clock op (40_clocktree.md R90 to R93, 41_pll.md R103): to its end where the first poll of the calibration
answers 1, and to the fatal fault where every poll answers 0. -/

namespace Sys2Proof.Machine

/-! ### From the acceptance to the end -/

/-- The state in which the script of a clock op starts, without the script: the built sleep parameters are discarded and the
issuer's mailbox runs. -/
def begun (s : State) : State :=
  setSeq { busy := true, owner := s.env.picked, script := [], result := none }
    (setMbox s.env.picked { mboxAt s s.env.picked with pending := false, running := true } (setSlp (discardParams s).slp s))

theorem discardParams_eq_setSlp (s : State) : discardParams s = setSlp (discardParams s).slp s := by
  obtain ⟨-, h⟩ | h := discardParams_eq s
  · rw [h]; rfl
  · rw [h]; rfl

theorem start_clockScript_eq (k : ClockConfig) (s : State) :
    start (clockScript k) (discardParams s) = advance (clockScript k) (begun s) := by
  rw [discardParams_eq_setSlp]; rfl

theorem start_clockScript_accepted (k : ClockConfig) (s : State) :
    Accepted s.env.picked s (start (clockScript k) (discardParams s)) := by
  rw [start_clockScript, discardParams_eq_setSlp]
  exact ⟨rfl, rfl, rfl, fun d hd => mboxAt_setMbox_ne hd _ _, mboxAt_setMbox_self _ _ _⟩

theorem begun_running {s : State} (h : Ready s) : Running (begun s) := ⟨rfl, h.1⟩

/-- The end of the op, as its mailbox and the sequencing see it: no step in between has touched them. -/
theorem release_endOp_begun {s v : State} (hmbox : v.mbox = (begun s).mbox) (hseq : v.seq = (begun s).seq) (k : StatusCode) :
    Released s.env.picked (release (endOp s.env.picked k v)) ∧
      OpEndedPlain s.env.picked k s (release (endOp s.env.picked k v)) := by
  have hv (d : Core) : mboxAt v d = mboxAt (begun s) d := by unfold mboxAt; rw [hmbox]
  refine ⟨?_, ⟨fun d hd => ?_, ?_⟩, ?_⟩
  · rw [Released, release_seq, show (endOp s.env.picked k v).seq = v.seq from rfl, hseq]; rfl
  · rw [release_mboxAt, mboxAt_endOp_ne hd, hv]
    exact mboxAt_setMbox_ne hd _ _
  · simp [EndedWith, hv, begun]
  · simp [hv, begun]

/-- Two states with the same chip, fault record and environment, as O12 compares them. -/
theorem state_eq_of_fields {s u : State} (hcfg : u.cfg = s.cfg) (hfault : u.fault = s.fault) (henv : u.env = s.env) :
    u = { s with
      mbox := u.mbox, seq := u.seq, clk := u.clk, plls := u.plls, curPllFreqMhz := u.curPllFreqMhz,
      lastCalPll := u.lastCalPll, slp := u.slp, trace := u.trace } := by
  rw [← hcfg, ← hfault, ← henv]

/-! ### What steps 1 and 2 leave of the target -/

/-- The target's PLL is not the one that is left. -/
theorem pllAt_left_target {s : State} {k : ClockConfig} {q : PllId} (hk : k.source = .pll q) :
    pllAt (left s k) q = pllAt s q := by
  rw [pllAt_left, if_neg]
  rintro ⟨hleft, -⟩
  exact (leftPll_eq_some.1 hleft).2 hk

theorem needsReconf_left (s : State) (k : ClockConfig) : needsReconf (left s k) k = needsReconf s k := by
  unfold needsReconf
  cases hk : k.source with
  | pll q => dsimp only; rw [pllAt_left_target hk]
  | _ => rfl

theorem bringUpEvents_left (s : State) (k : ClockConfig) : bringUpEvents (left s k) k = bringUpEvents s k := by
  unfold bringUpEvents
  rw [needsReconf_left, (left_sameOps s k).cfg]
  cases hk : k.source with
  | pll q => dsimp only; rw [pllAt_left_target hk]
  | _ => rfl

/-- The PLL that is left is disabled where no consumer holds it (R90, 41_pll.md R106). -/
theorem pllAt_left_source {s : State} {k : ClockConfig} {p : PllId} (hcur : s.clk.cur.source = .pll p)
    (hne : k.source ≠ .pll p) :
    pllAt (left s k) p = if (pllAt s p).consumerCount = 0 then
      { pllAt s p with enabled := false, configuredFreqMhz := 0, calState := .calIdle } else pllAt s p := by
  rw [pllAt_left]
  simp [leftPll_eq_some.2 ⟨hcur, hne⟩]

/-- A PLL that is neither left nor the target's is untouched. -/
theorem pllAt_left_other {s : State} {k : ClockConfig} {j : PllId} (hcur : s.clk.cur.source ≠ .pll j) :
    pllAt (left s k) j = pllAt s j := by
  rw [pllAt_left, if_neg]
  rintro ⟨hleft, -⟩
  exact hcur (leftPll_eq_some.1 hleft).1

theorem left_cur (s : State) (k : ClockConfig) : (left s k).clk.cur = applyBase s k := by
  rw [left_clk, onBase_cur]

/-- No step before step 5 scales the counter. -/
theorem left_cycleCounter (s : State) (k : ClockConfig) : (left s k).clk.cycleCounter = s.clk.cycleCounter := by
  rw [left_clk]
  unfold onBase
  split <;> rfl

/-! ### The run that succeeds -/

/-- The state after the five steps of `set_config(k)` with the first poll answered 1 (R90). -/
def switched (s : State) (k : ClockConfig) : State :=
  doStepFive s.clk.cur.freqMhz k.freqMhz (applied k (broughtUp (left s k) k))

theorem RunsTo.switch {s : State} (hs : Running s) (k : ClockConfig) :
    RunsTo true (advance (clockScript k) s) (finishOp .plain (switched s k)) := by
  have hleft : Running (left s k) := (left_sameOps s k).running hs
  have hbrought : Running (broughtUp (left s k) k) := (broughtUp_sameOps _ k).running hleft
  have hend : RunsTo true
      (advance (.apply k :: .stepFive s.clk.cur.freqMhz k.freqMhz :: [.finish .plain]) (broughtUp (left s k) k))
      (finishOp .plain (switched s k)) :=
    RunsTo.apply hbrought (RunsTo.body ((applied_sameOps k _).running hbrought) rfl (.inl rfl))
  refine RunsTo.leave hs ?_
  unfold entryScript
  cases hk : k.source with
  | pll q => exact RunsTo.bringUp hleft hend
  | _ =>
    rw [broughtUp_of_noPll (by simp [hk])] at hend
    exact hend

theorem switched_sameOps (s : State) (k : ClockConfig) : SameOps s (switched s k) :=
  (left_sameOps s k).trans ((broughtUp_sameOps _ k).trans ((applied_sameOps k _).trans
    (microBody_sameOps true (.stepFive _ _) _)))

theorem switched_trace (s : State) (k : ClockConfig) : (switched s k).trace = s.trace ++ switchEvents s k := by
  have happlied : (switched s k).trace =
      (broughtUp (left s k) k).trace ++
        applyEvents (broughtUp (left s k) k).cfg (broughtUp (left s k) k).clk.cur k := rfl
  rw [happlied, broughtUp_trace, left_trace, bringUpEvents_left, broughtUp_clk, left_cur,
    ((left_sameOps s k).trans (broughtUp_sameOps _ k)).cfg, switchEvents]
  simp only [List.append_assoc]

/-- The clock fields after the five steps (R87, R92). -/
theorem switched_clk (s : State) (k : ClockConfig) :
    (switched s k).clk.cur = k ∧ (switched s k).clk.state = stateOf k.source ∧ (switched s k).clk.hw.mux = k.source ∧
      (switched s k).clk.hw.cpuDiv = k.divider ∧
      (∀ b ∈ chain s.cfg, busDiv (switched s k).clk.hw.busDiv b = busDiv (busDivs s.cfg k) b) ∧
      (switched s k).clk.ticksPerUs = k.freqMhz ∧
      (switched s k).clk.cycleCounter = rescale s.clk.cycleCounter s.clk.cur.freqMhz k.freqMhz := by
  have hcfg := ((left_sameOps s k).trans (broughtUp_sameOps _ k)).cfg
  obtain ⟨hmux, hcpu, hbus⟩ := applied_hw k (broughtUp (left s k) k)
  rw [hcfg] at hbus
  refine ⟨rfl, rfl, hmux, hcpu, hbus, rfl, ?_⟩
  have hcounter : (switched s k).clk.cycleCounter =
      rescale (broughtUp (left s k) k).clk.cycleCounter s.clk.cur.freqMhz k.freqMhz := rfl
  rw [hcounter, broughtUp_clk, left_cycleCounter]

theorem pllAt_switched (s : State) (k : ClockConfig) (j : PllId) :
    pllAt (switched s k) j = pllAt (broughtUp (left s k) k) j := rfl

/-- The PLLs after the five steps: those of the target, of the source that is left, and all others. -/
theorem switched_plls {s : State} {k : ClockConfig} (hcfg : cfgOk s.cfg = true) (hk : validConfig s.cfg k = true) :
    (∀ q, k.source = .pll q →
      pllAt (switched s k) q = (if needsReconf s k = true then
        { pllAt s q with
          enabled := true, configuredFreqMhz := k.sourceFreqMhz, calState := .calIdle,
          calPollsLeft := s.cfg.calTimeoutPolls - 1 }
        else { pllAt s q with enabled := true, configuredFreqMhz := k.sourceFreqMhz })) ∧
    (∀ p, s.clk.cur.source = .pll p → k.source ≠ .pll p →
      pllAt (switched s k) p = if (pllAt s p).consumerCount = 0 then
        { pllAt s p with enabled := false, configuredFreqMhz := 0, calState := .calIdle } else pllAt s p) ∧
    ∀ j, s.clk.cur.source ≠ .pll j → k.source ≠ .pll j → pllAt (switched s k) j = pllAt s j := by
  refine ⟨fun q hsource => ?_, fun p hcur hne => ?_, fun j hcur hne => ?_⟩
  · have hq : q.toNat < 8 := by simpa [sourceHeld, hsource] using sourceHeld_of_valid hcfg hk
    rw [pllAt_switched, pllAt_broughtUp hsource hq, needsReconf_left, pllAt_left_target hsource, (left_sameOps s k).cfg]
  · rw [pllAt_switched, pllAt_broughtUp_ne hne, pllAt_left_source hcur hne]
  · rw [pllAt_switched, pllAt_broughtUp_ne hne, pllAt_left_other hcur]

theorem switched_curPll (s : State) (k : ClockConfig) :
    (∀ q, k.source = .pll q → needsReconf s k = true →
      (switched s k).curPllFreqMhz = k.sourceFreqMhz ∧ (switched s k).lastCalPll = q) ∧
    (needsReconf s k = false →
      (switched s k).lastCalPll = s.lastCalPll ∧
      (switched s k).curPllFreqMhz =
        if leftPll s.clk.cur k = some s.lastCalPll ∧ (pllAt s s.lastCalPll).consumerCount = 0 then 0
        else s.curPllFreqMhz) := by
  obtain ⟨hcalibrated, hsame⟩ := broughtUp_curPll (left s k) k
  rw [needsReconf_left] at hcalibrated hsame
  refine ⟨hcalibrated, fun hreconf => ?_⟩
  obtain ⟨hfreq, hlast⟩ := hsame hreconf
  exact ⟨hlast.trans (left_lastCalPll s k), hfreq.trans (left_curPllFreqMhz s k)⟩

/-- Settles O12: the run ends in `switched` of the state in which the op starts, whose fields are those of the five steps. -/
theorem clockSwitchRuns : Obligations.ClockSwitchRuns := by
  intro i s k hcfg hready htarget hk
  obtain ⟨n, hrun⟩ := RunsTo.switch (begun_running hready) k
  refine ⟨_, exec_clockOp hready htarget, start_clockScript_accepted k s, n + 1, finishOp .plain (switched (begun s) k), ?_⟩
  have hops := switched_sameOps (begun s) k
  have howner : (switched (begun s) k).seq.owner = s.env.picked := by rw [hops.seq]; rfl
  have hfinish : finishOp .plain (switched (begun s) k) = release (endOp s.env.picked .ok (switched (begun s) k)) := by
    rw [finishOp, howner]; rfl
  obtain ⟨hreleased, hended⟩ := release_endOp_begun (s := s) hops.mbox hops.seq .ok
  obtain ⟨hcur, hstate, hmux, hcpu, hbus, hticks, hcounter⟩ := switched_clk (begun s) k
  obtain ⟨htargetPll, hleftPll, hothers⟩ := switched_plls (s := begun s) hcfg hk
  obtain ⟨hcalibrated, hsame⟩ := switched_curPll (begun s) k
  rw [hfinish]
  refine ⟨?_, ?_, hreleased, hended, hcur, hstate, hmux, hcpu, hbus, hticks, hcounter,
    fun q hq => ⟨htargetPll q hq, hcalibrated q hq⟩, hsame, hleftPll, hothers⟩
  · rw [← hfinish, start_clockScript_eq]; exact hrun.symm
  · have hslp : (switched (begun s) k).slp = (discardParams s).slp := hops.slp
    have htrace : (switched (begun s) k).trace = s.trace ++ switchEvents s k := switched_trace (begun s) k
    rw [← hslp, ← htrace]
    exact state_eq_of_fields hops.cfg hops.fault hops.env

/-! ### The run that times out -/

/-- A fatal fault of the running op (60_exceptions.md R156). -/
theorem raiseFatal_owner (k : StatusCode) (info : BitVec 16) (s : State) :
    raiseFatal s.seq.owner true k info s = release (endOp s.seq.owner k (recordFault k info s)) := by
  simp [raiseFatal, abandonOther]

theorem recordFault_mbox (k : StatusCode) (info : BitVec 16) (s : State) : (recordFault k info s).mbox = s.mbox := by
  unfold recordFault; split <;> rfl

theorem recordFault_atScript (k : StatusCode) (info : BitVec 16) (l : List Micro) (s : State) :
    recordFault k info (atScript l s) = atScript l (recordFault k info s) := by
  unfold recordFault
  exact (apply_ite (atScript l) (s.fault.halted = true) s
    { s with fault := { halted := true, code := codeByte k, info := info } }).symm

theorem raiseFatal_owner_atScript (k : StatusCode) (info : BitVec 16) (l : List Micro) (s : State) :
    raiseFatal (atScript l s).seq.owner true k info (atScript l s) = raiseFatal s.seq.owner true k info s := by
  rw [raiseFatal_owner, raiseFatal_owner, recordFault_atScript]
  rfl

/-- The state after the timeout's own writes, before the fault (R93). -/
def calFailed (id : PllId) (oldMhz : Word) (s : State) : State :=
  doStepFive oldMhz s.clk.cur.freqMhz (setPll id { pllAt s id with calState := .calFailed } s)

theorem calTimeout_some (id : PllId) (oldMhz : Word) (s : State) :
    calTimeout id (some oldMhz) s =
      raiseFatal (calFailed id oldMhz s).seq.owner true .calibrationTimeout (pllFaultInfo id 0) (calFailed id oldMhz s) := rfl

theorem calTimeout_atScript (id : PllId) (oldMhz : Word) (l : List Micro) (s : State) :
    calTimeout id (some oldMhz) (atScript l s) = calTimeout id (some oldMhz) s := by
  rw [calTimeout_some, calTimeout_some]
  exact raiseFatal_owner_atScript _ _ l (calFailed id oldMhz s)

/-- A poll that answers 0 is the timeout, or the same poll comes again (41_pll.md R103). -/
theorem sequencerStep_pollFails {s : State} (hs : Running s) (id : PllId) (oldMhz : Word) (rest : List Micro) :
    sequencerStep false (advance (.calPoll id (some oldMhz) :: rest) s) =
      if (pllAt (calPolled id false s) id).calPollsLeft = 0 then calTimeout id (some oldMhz) (calPolled id false s)
      else advance (.calPoll id (some oldMhz) :: rest) (calPolled id false s) := by
  have hne : Micro.calPoll id (some oldMhz) ≠ .setProgrammed ∧ ∀ e, Micro.calPoll id (some oldMhz) ≠ .finish e := by simp
  generalize hl : Micro.calPoll id (some oldMhz) :: rest = l
  have hhead : resolveHead 4 (atScript l s) l = .calPoll id (some oldMhz) :: rest := by rw [← hl]; rfl
  have hrun : (atScript l s).seq.busy = true ∧ (atScript l s).fault.halted = false := hs
  have hadvance : advance l s = atScript l s := by rw [← hl]; exact advance_eq_atScript hne rest s
  have hpolled : calPolled id false (atScript l s) = atScript l (calPolled id false s) := rfl
  rw [hadvance]
  unfold sequencerStep
  rw [if_pos hrun, show (atScript l s).seq.script = l from rfl, hhead]
  dsimp only [runMicro, doCalPoll]
  rw [hl, hpolled, if_neg Bool.false_ne_true, calTimeout_atScript, advance_atScript]
  rfl

/-- `n` polls that answer 0. -/
def polledZero (id : PllId) (n : Nat) (s : State) : State := (calPolled id false)^[n] s

theorem polledZero_succ (id : PllId) (n : Nat) (s : State) :
    polledZero id (n + 1) s = polledZero id n (calPolled id false s) := rfl

theorem polledZero_sameOps (id : PllId) (n : Nat) (s : State) : SameOps s (polledZero id n s) := by
  induction n generalizing s with
  | zero => exact .refl s
  | succ n ih => exact (microBody_sameOps false (.calPoll id none) s).trans (ih _)

theorem polledZero_clk (id : PllId) (n : Nat) (s : State) :
    (polledZero id n s).clk = s.clk ∧ (polledZero id n s).lastCalPll = s.lastCalPll ∧
      (polledZero id n s).curPllFreqMhz = s.curPllFreqMhz := by
  induction n generalizing s with
  | zero => exact ⟨rfl, rfl, rfl⟩
  | succ n ih => exact ih (calPolled id false s)

theorem polledZero_trace (id : PllId) (n : Nat) (s : State) :
    (polledZero id n s).trace = s.trace ++ List.replicate n (.r (.calDone id) 0) := by
  induction n generalizing s with
  | zero => simp [polledZero]
  | succ n ih => rw [polledZero_succ, ih, calPolled_trace, List.replicate_succ, List.append_assoc]; rfl

theorem pllAt_polledZero (id j : PllId) (n : Nat) (s : State) :
    pllAt (polledZero id n s) j =
      if j = id ∧ id.toNat < 8 then { pllAt s id with calPollsLeft := (pllAt s id).calPollsLeft - n } else pllAt s j := by
  induction n generalizing s with
  | zero =>
    split
    next h => rw [h.1]; rfl
    next => rfl
  | succ n ih =>
    rw [polledZero_succ, ih, pllAt_calPolled, pllAt_calPolled]
    by_cases hj : j = id ∧ id.toNat < 8
    · simp [hj, Nat.sub_sub, Nat.add_comm]
    · simp [hj]

/-- The loop runs out of polls. -/
theorem RunsTo.pollsFail {s : State} (hs : Running s) {id : PllId} (hid : id.toNat < 8) (oldMhz : Word) (rest : List Micro)
    {n : Nat} (hn : (pllAt s id).calPollsLeft = n + 1) :
    RunsTo false (advance (.calPoll id (some oldMhz) :: rest) s)
      (calTimeout id (some oldMhz) (polledZero id (n + 1) s)) := by
  have hleft : (pllAt (calPolled id false s) id).calPollsLeft = n := by simp [pllAt_calPolled, hid, hn]
  have hstep := sequencerStep_pollFails hs id oldMhz rest
  rw [hleft] at hstep
  induction n generalizing s with
  | zero =>
    rw [if_pos rfl] at hstep
    have hlast := RunsTo.step false (advance (.calPoll id (some oldMhz) :: rest) s)
    rwa [hstep] at hlast
  | succ n ih =>
    rw [if_neg (Nat.succ_ne_zero n)] at hstep
    have hnext : Running (calPolled id false s) := hs
    have hleft' : (pllAt (calPolled id false (calPolled id false s)) id).calPollsLeft = n := by
      simp [pllAt_calPolled id id, hid, hn]
    have hstep' := sequencerStep_pollFails hnext id oldMhz rest
    rw [hleft'] at hstep'
    refine RunsTo.cons ?_
    rw [hstep]
    exact ih hnext hleft hleft' hstep'

/-- The state after the last poll of a calibration inside `set_config(k)` that answers 0 throughout (R90, 41_pll.md R103). -/
def pollsSpent (s : State) (k : ClockConfig) (q : PllId) : State :=
  polledZero q s.cfg.calTimeoutPolls (calibrating (left s k) q k.sourceFreqMhz)

theorem RunsTo.switchTimesOut {s : State} (hs : Running s) {k : ClockConfig} {q : PllId} (hk : k.source = .pll q)
    (hq : q.toNat < 8) (hreconf : needsReconf s k = true) (hpolls : 1 ≤ s.cfg.calTimeoutPolls) :
    RunsTo false (advance (clockScript k) s) (calTimeout q (some s.clk.cur.freqMhz) (pollsSpent s k q)) := by
  have hleft : Running (left s k) := (left_sameOps s k).running hs
  have hcalibrating : Running (calibrating (left s k) q k.sourceFreqMhz) := (calibrating_sameOps _ q _).running hleft
  obtain ⟨n, hn⟩ : ∃ n, s.cfg.calTimeoutPolls = n + 1 := ⟨_, (Nat.succ_pred_eq_of_pos hpolls).symm⟩
  have hfirst : (pllAt (calibrating (left s k) q k.sourceFreqMhz) q).calPollsLeft = n + 1 := by
    rw [pllAt_calibrating hq, if_pos rfl, (left_sameOps s k).cfg]
    exact hn
  have hscript := bringUpScript_reconf hk ((needsReconf_left s k).trans hreconf) s.clk.cur.freqMhz
  refine RunsTo.leave hs ?_
  unfold entryScript
  simp only [hk]
  refine RunsTo.control hleft (l := bringUpScript (left s k) k s.clk.cur.freqMhz) rfl
    (resolvesIn_bringUpScript false 2 _ k k _ _) ?_ ?_
  · obtain hnil | ⟨m, ms, hcons, hm⟩ := bringUpScript_cons (left s k) k s.clk.cur.freqMhz
    · rw [hnil]; simp
    · rw [hcons]
      rintro x ⟨⟩
      exact ne_unmarked_of_plain (hm true)
  · rw [hscript, List.append_assoc]
    refine RunsTo.bodies (calPrelude_plain false _ q _) hleft ?_
    rw [bodies_calPrelude, pollsSpent, hn]
    exact RunsTo.pollsFail hcalibrating hq _ _ hfirst

theorem pollsSpent_sameOps (s : State) (k : ClockConfig) (q : PllId) : SameOps s (pollsSpent s k q) :=
  (left_sameOps s k).trans ((calibrating_sameOps _ q _).trans (polledZero_sameOps q _ _))

theorem pollsSpent_clk (s : State) (k : ClockConfig) (q : PllId) : (pollsSpent s k q).clk = (onBase s k).clk := by
  obtain ⟨hclk, -, -⟩ := polledZero_clk q s.cfg.calTimeoutPolls (calibrating (left s k) q k.sourceFreqMhz)
  rw [pollsSpent, hclk, calibrating_clk, left_clk]

theorem pollsSpent_trace (s : State) (k : ClockConfig) {q : PllId} (hk : k.source = .pll q) :
    (pollsSpent s k q).trace =
      s.trace ++ leaveEvents s k ++ timedOutCalibration s.cfg q (pllAt s q).enabled k.sourceFreqMhz := by
  rw [pollsSpent, polledZero_trace, calibrating_trace, left_trace, (left_sameOps s k).cfg, pllAt_left_target hk,
    timedOutCalibration]
  simp only [List.append_assoc]

theorem pollsSpent_curPll (s : State) (k : ClockConfig) (q : PllId) :
    (pollsSpent s k q).lastCalPll = s.lastCalPll ∧
      (pollsSpent s k q).curPllFreqMhz =
        if s.lastCalPll = q ∨ leftPll s.clk.cur k = some s.lastCalPll ∧ (pllAt s s.lastCalPll).consumerCount = 0 then 0
        else s.curPllFreqMhz := by
  obtain ⟨-, hlast, hfreq⟩ := polledZero_clk q s.cfg.calTimeoutPolls (calibrating (left s k) q k.sourceFreqMhz)
  refine ⟨hlast.trans ((calibrating_lastCalPll ..).trans (left_lastCalPll s k)), hfreq.trans ?_⟩
  rw [calibrating_curPllFreqMhz, left_lastCalPll, left_curPllFreqMhz]
  by_cases hq : s.lastCalPll = q
  · rw [if_pos hq, if_pos (.inl hq)]
  · rw [if_neg hq]
    simp only [hq, false_or]

theorem pllAt_pollsSpent_target (s : State) {k : ClockConfig} {q : PllId} (hk : k.source = .pll q) (hq : q.toNat < 8) :
    pllAt (pollsSpent s k q) q =
      { pllAt s q with enabled := true, configuredFreqMhz := 0, calState := .calStarted, calPollsLeft := 0 } := by
  rw [pollsSpent, pllAt_polledZero, if_pos ⟨rfl, hq⟩, pllAt_calibrating hq, if_pos rfl, pllAt_left_target hk,
    (left_sameOps s k).cfg]
  simp

theorem pllAt_pollsSpent_ne (s : State) {k : ClockConfig} {q j : PllId} (hj : j ≠ q) :
    pllAt (pollsSpent s k q) j = pllAt (left s k) j := by
  rw [pollsSpent, pllAt_polledZero, if_neg fun h => hj h.1, pllAt_calibrating_ne hj]

/-- The clock fields that a timed-out switch leaves: those of the configuration really applied (R93). -/
theorem onBase_clk (s : State) (k : ClockConfig) :
    (onBase s k).clk.state = (if goesThroughCrystal s k then .onCrystal else s.clk.state) ∧
      (if goesThroughCrystal s k then
        (onBase s k).clk.hw.mux = .crystal ∧ (onBase s k).clk.hw.cpuDiv = { int := 1, num := 0, den := 0 } ∧
          ∀ b ∈ chain s.cfg, busDiv (onBase s k).clk.hw.busDiv b = busDiv (busDivs s.cfg (xtalNative s.cfg)) b
      else (onBase s k).clk.hw = s.clk.hw) ∧
      (onBase s k).clk.cycleCounter = s.clk.cycleCounter := by
  unfold onBase
  cases goesThroughCrystal s k with
  | true => exact ⟨rfl, applied_hw (xtalNative s.cfg) s, rfl⟩
  | false => exact ⟨rfl, rfl, rfl⟩

/-- Where the target's PLL is reconfigured, the configuration it is entered from is on the crystal (R90). -/
theorem applyBase_source {s : State} {k : ClockConfig} (hreconf : needsReconf s k = true) :
    (applyBase s k).source = .crystal := by
  unfold applyBase
  cases hthrough : goesThroughCrystal s k with
  | true => rfl
  | false =>
    obtain hcrystal | ⟨-, hno⟩ := goesThroughCrystal_eq_false hthrough
    · exact hcrystal
    · exact absurd (hreconf.symm.trans hno) Bool.noConfusion

theorem calTimeoutPolls_pos {cfg : Cfg} (h : cfgOk cfg = true) : 1 ≤ cfg.calTimeoutPolls := by
  simp only [cfgOk, Bool.and_eq_true, decide_eq_true_eq] at h
  obtain ⟨⟨⟨⟨-, hpolls⟩, -⟩, -⟩, -⟩ := h
  exact hpolls

/-- The timeout inside `set_config`, field by field: the fault, the counter scaled for the configuration really applied, the
controller that has failed (R93, 60_exceptions.md R157). -/
theorem calTimeout_some_fields (id : PllId) (oldMhz : Word) (s : State) (hrun : s.fault.halted = false) :
    (calTimeout id (some oldMhz) s).fault = { halted := true, code := 0x02, info := pllFaultInfo id 0 } ∧
      (calTimeout id (some oldMhz) s).clk = { s.clk with
        ticksPerUs := s.clk.cur.freqMhz, cycleCounter := rescale s.clk.cycleCounter oldMhz s.clk.cur.freqMhz } ∧
      (calTimeout id (some oldMhz) s).lastCalPll = s.lastCalPll ∧
      (calTimeout id (some oldMhz) s).curPllFreqMhz = s.curPllFreqMhz ∧
      (calTimeout id (some oldMhz) s).cfg = s.cfg ∧ (calTimeout id (some oldMhz) s).slp = s.slp ∧
      (calTimeout id (some oldMhz) s).env = s.env := by
  have hfailed : (calFailed id oldMhz s).fault.halted = false := hrun
  rw [calTimeout_some]
  refine ⟨?_, ?_, ?_, ?_, ?_, ?_, ?_⟩
  · rw [raiseFatal_fault, hfailed]; rfl
  · rw [raiseFatal_clk]; rfl
  · rw [raiseFatal_lastCalPll]; rfl
  · rw [raiseFatal_curPllFreqMhz]; rfl
  · rw [raiseFatal_cfg]; rfl
  · rw [raiseFatal_slp]; rfl
  · rw [raiseFatal_env]; rfl

/-- The mailbox of the op that has timed out. -/
theorem calTimeout_ends {s v : State} (h : SameOps (begun s) v) (id : PllId) (oldMhz : Word) :
    Released s.env.picked (calTimeout id (some oldMhz) v) ∧
      OpEndedPlain s.env.picked .calibrationTimeout s (calTimeout id (some oldMhz) v) := by
  have howner : (calFailed id oldMhz v).seq.owner = s.env.picked := by
    rw [show (calFailed id oldMhz v).seq = v.seq from rfl, h.seq]; rfl
  rw [calTimeout_some, raiseFatal_owner, howner]
  refine release_endOp_begun ?_ ?_ _
  · rw [recordFault_mbox]; exact h.mbox
  · rw [recordFault_seq]; exact h.seq

/-- Settles O23: the run ends in the timeout of `pollsSpent` of the state in which the op starts. -/
theorem clockSwitchTimesOut : Obligations.ClockSwitchTimesOut := by
  intro i s k q hcfg hready htarget hk hsource hreconf
  have hq : q.toNat < 8 := by simpa [sourceHeld, hsource] using sourceHeld_of_valid hcfg hk
  obtain ⟨n, hrun⟩ := RunsTo.switchTimesOut (begun_running hready) hsource hq hreconf (calTimeoutPolls_pos hcfg)
  have hops := pollsSpent_sameOps (begun s) k q
  have hrunning : (pollsSpent (begun s) k q).fault.halted = false := by rw [hops.fault]; exact hready.1
  obtain ⟨hfault, hclk, hlast, hfreq, hcfgSame, hslp, henv⟩ :=
    calTimeout_some_fields q (begun s).clk.cur.freqMhz _ hrunning
  obtain ⟨hreleased, hended⟩ := calTimeout_ends hops q (begun s).clk.cur.freqMhz
  obtain ⟨hlastSpent, hfreqSpent⟩ := pollsSpent_curPll (begun s) k q
  obtain ⟨hstate, hhw, hcounter⟩ := onBase_clk (begun s) k
  have hcur := onBase_cur (begun s) k
  have hpll (j : PllId) := pllAt_calTimeout q j (some (begun s).clk.cur.freqMhz) (pollsSpent (begun s) k q)
  have hother {j : PllId} (hj : k.source ≠ .pll j) : pllAt (calTimeout q (some (begun s).clk.cur.freqMhz)
      (pollsSpent (begun s) k q)) j = pllAt (left (begun s) k) j := by
    have hne : j ≠ q := by rintro rfl; exact hj hsource
    rw [hpll, if_neg fun h => hne h.1, pllAt_pollsSpent_ne _ hne]
  rw [pollsSpent_clk] at hclk
  refine ⟨_, exec_clockOp hready htarget, start_clockScript_accepted k s, n + 1,
    calTimeout q (some (begun s).clk.cur.freqMhz) (pollsSpent (begun s) k q), ?_, hfault, hreleased, hended, ?_, ?_, ?_, ?_,
    ?_, ?_, ?_, fun p hp hne => ?_, fun j hp hne => ?_, hlast.trans hlastSpent, hfreq.trans hfreqSpent, ?_,
    hcfgSame.trans hops.cfg, hslp.trans hops.slp, henv.trans hops.env⟩
  · rw [start_clockScript_eq]; exact hrun.symm
  · rw [hclk]; exact hcur
  · rw [hclk]; exact hstate
  · rw [hclk]; exact congrArg ClockConfig.freqMhz hcur
  · rw [hclk, hcur, hcounter]; rfl
  · rw [hpll, if_pos ⟨rfl, hq⟩, pllAt_pollsSpent_target _ hsource hq]; rfl
  · rw [hclk]; exact (congrArg ClockConfig.source hcur).trans (applyBase_source (s := begun s) hreconf)
  · rw [hclk]; exact hhw
  · rw [hother hne]; exact pllAt_left_source (s := begun s) hp hne
  · rw [hother hne]; exact pllAt_left_other (s := begun s) hp
  · rw [calTimeout_trace]; exact pollsSpent_trace (begun s) k hsource

end Sys2Proof.Machine
end

section
/-! The bus frequencies at an instant of a move (40_clocktree.md R85, R98): the inner buses have the dividers of one
configuration and the outer ones those of the other, so that every frequency lies below one that is within its limit. -/

namespace Sys2Proof.Machine

/-! ### The cascade of the dividers -/

/-- `p ≤ q` on the rationals, `ratioLe` as a proposition. -/
def RatioLe (p q : Ratio) : Prop := p.num * q.den ≤ q.num * p.den

theorem ratioLe_iff (p q : Ratio) : ratioLe p q = true ↔ RatioLe p q := by simp [ratioLe, RatioLe]

/-- The frequency of a bus behind the frequency `g` (R85). -/
def busStep (d : BusDivs) (g : Ratio) (b : Bus) : Ratio := if b = .cpu then g else ratioDiv g (busDiv d b).toNat

theorem cascade_cons (d : BusDivs) (g : Ratio) (b : Bus) (l : List Bus) :
    cascade d g (b :: l) = (b, busStep d g b) :: cascade d (busStep d g b) l := rfl

/-- The frequency behind the last of the given buses. -/
def cascadeEnd (d : BusDivs) (g : Ratio) (l : List Bus) : Ratio := l.foldl (busStep d) g

theorem cascade_append (d : BusDivs) (g : Ratio) (pre suf : List Bus) :
    cascade d g (pre ++ suf) = cascade d g pre ++ cascade d (cascadeEnd d g pre) suf := by
  induction pre generalizing g with
  | nil => rfl
  | cons b pre ih => rw [List.cons_append, cascade_cons, cascade_cons, ih]; rfl

@[simp] theorem length_cascade (d : BusDivs) (g : Ratio) (l : List Bus) : (cascade d g l).length = l.length := by
  induction l generalizing g with
  | nil => rfl
  | cons b l ih => rw [cascade_cons, List.length_cons, List.length_cons, ih]

/-- The frequency of a bus is the one behind it. -/
theorem getElem?_cascade (d : BusDivs) (g : Ratio) (pre : List Bus) (b : Bus) (suf : List Bus) :
    (cascade d g (pre ++ b :: suf))[pre.length]? = some (b, cascadeEnd d g (pre ++ [b])) := by
  rw [cascade_append, List.getElem?_append_right (by simp), length_cascade, Nat.sub_self, cascade_cons, cascadeEnd,
    cascadeEnd, List.foldl_append]
  rfl

theorem busStep_le {p q : Ratio} (h : RatioLe p q) (d : BusDivs) (b : Bus) : RatioLe (busStep d p b) (busStep d q b) := by
  unfold busStep
  split
  · exact h
  · calc p.num * (q.den * (busDiv d b).toNat) = p.num * q.den * (busDiv d b).toNat := (Nat.mul_assoc ..).symm
      _ ≤ q.num * p.den * (busDiv d b).toNat := Nat.mul_le_mul_right _ h
      _ = q.num * (p.den * (busDiv d b).toNat) := Nat.mul_assoc ..

theorem busStep_den_pos {g : Ratio} (hg : 0 < g.den) {d : BusDivs} {b : Bus} (hb : 1 ≤ (busDiv d b).toNat) :
    0 < (busStep d g b).den := by
  unfold busStep
  split
  · exact hg
  · exact Nat.mul_pos hg hb

theorem cascadeEnd_den_pos {g : Ratio} (hg : 0 < g.den) {d : BusDivs} {l : List Bus}
    (hl : ∀ b ∈ l, 1 ≤ (busDiv d b).toNat) : 0 < (cascadeEnd d g l).den := by
  induction l generalizing g with
  | nil => exact hg
  | cons b l ih =>
    exact ih (busStep_den_pos hg (hl b List.mem_cons_self)) fun x hx => hl x (List.mem_cons_of_mem b hx)

/-! ### Within the limits -/

/-- A bus is within its limit at a frequency (R89). -/
def busWithin (cfg : Cfg) (b : Bus) (f : Ratio) : Prop := ∀ m, busLimit cfg.limits b = some m → f.num ≤ m.toNat * f.den

theorem withinLimits_cons (cfg : Cfg) (b : Bus) (f : Ratio) (fs : List (Bus × Ratio)) :
    withinLimits cfg ((b, f) :: fs) = true ↔ busWithin cfg b f ∧ withinLimits cfg fs = true := by
  simp only [withinLimits, List.all_cons, Bool.and_eq_true, busWithin]
  refine and_congr_left fun _ => ?_
  cases busLimit cfg.limits b <;> simp [ratioAtMost]

theorem withinLimits_append (cfg : Cfg) (fs gs : List (Bus × Ratio)) :
    withinLimits cfg (fs ++ gs) = true ↔ withinLimits cfg fs = true ∧ withinLimits cfg gs = true := by
  simp [withinLimits]

theorem busWithin_of_le {cfg : Cfg} {b : Bus} {p q : Ratio} (h : RatioLe p q) (hq : 0 < q.den) (hb : busWithin cfg b q) :
    busWithin cfg b p := by
  intro m hm
  refine Nat.le_of_mul_le_mul_right ?_ hq
  calc p.num * q.den ≤ q.num * p.den := h
    _ ≤ m.toNat * q.den * p.den := Nat.mul_le_mul_right _ (hb m hm)
    _ = m.toNat * p.den * q.den := Nat.mul_right_comm ..

/-- A slower start keeps every bus below where it was. -/
theorem withinLimits_cascade_of_le {cfg : Cfg} {d : BusDivs} {l : List Bus} (hl : ∀ b ∈ l, 1 ≤ (busDiv d b).toNat)
    {p q : Ratio} (h : RatioLe p q) (hq : 0 < q.den) (hlimits : withinLimits cfg (cascade d q l) = true) :
    withinLimits cfg (cascade d p l) = true := by
  induction l generalizing p q with
  | nil => rfl
  | cons b l ih =>
    have hpos := busStep_den_pos hq (hl b List.mem_cons_self)
    have hle := busStep_le h d b
    rw [cascade_cons, withinLimits_cons] at hlimits ⊢
    obtain ⟨hb, hrest⟩ := hlimits
    exact ⟨busWithin_of_le hle hpos hb, ih (fun x hx => hl x (List.mem_cons_of_mem b hx)) hle hpos hrest⟩

theorem cpuFreq_den_pos {cfg : Cfg} {q : Fraction} (hq : fractionOk cfg q = true) (src : Word) : 0 < (cpuFreq src q).den := by
  simp only [fractionOk, Bool.and_eq_true, decide_eq_true_eq] at hq
  obtain ⟨hint, -⟩ := hq
  simp only [cpuFreq, fractionValue]
  split
  next => exact hint
  next hden =>
    have hden : 0 < q.den.toNat := Nat.pos_of_ne_zero fun h => hden (BitVec.eq_of_toNat_eq h)
    exact Nat.add_pos_left (Nat.mul_pos hint hden) _

theorem cpuFreq_le {src src' : Word} (h : src.toNat ≤ src'.toNat) (q : Fraction) :
    RatioLe (cpuFreq src q) (cpuFreq src' q) :=
  Nat.mul_le_mul_right _ (Nat.mul_le_mul_right _ h)

/-- Where every settled frequency but the last is no higher, the one behind any inner bus is no higher. -/
theorem cascadeEnd_le {dA dB : BusDivs} {gA gB : Ratio} {pre suf : List Bus} (hpre : pre ≠ []) (hsuf : suf ≠ [])
    (h : freqsAtMost 1 (cascade dA gA (pre ++ suf)) (cascade dB gB (pre ++ suf))) :
    RatioLe (cascadeEnd dA gA pre) (cascadeEnd dB gB pre) := by
  have hlast := List.dropLast_append_getLast hpre
  have hlen : 0 < suf.length := List.length_pos_iff.2 hsuf
  rw [← ratioLe_iff]
  rw [← hlast, List.append_assoc, List.singleton_append] at h
  rw [← hlast]
  refine h _ ?_ _ _ (getElem?_cascade ..) (getElem?_cascade ..)
  rw [length_cascade, List.length_append, List.length_cons]
  omega

/-- An instant at which the inner buses `pre` are as in the configuration `a` and the outer ones as in `b`, where `a` is the
slower one on every bus but the last: with no inner bus, at a source that is no faster than `b`'s. -/
theorem withinLimits_between {cfg : Cfg} {a b : ClockConfig} {p : ClockPoint} {pre suf : List Bus}
    (hchain : chain cfg = pre ++ suf) (hdiv : ∀ x ∈ chain cfg, 1 ≤ (busDiv (busDivs cfg b) x).toNat)
    (hfrac : fractionOk cfg b.divider = true)
    (hinner : ∀ x ∈ pre, busDiv p.busDiv x = busDiv (busDivs cfg a) x)
    (houter : ∀ x ∈ suf, busDiv p.busDiv x = busDiv (busDivs cfg b) x)
    (ha : withinLimits cfg (settledFreqs cfg a) = true) (hb : withinLimits cfg (settledFreqs cfg b) = true)
    (hle : freqsAtMost 1 (settledFreqs cfg a) (settledFreqs cfg b))
    (hpre : pre ≠ [] → p.srcMhz = a.sourceFreqMhz ∧ p.cpuDiv = a.divider)
    (hnil : pre = [] → p.srcMhz.toNat ≤ b.sourceFreqMhz.toNat ∧ p.cpuDiv = b.divider) :
    withinLimits cfg (pointFreqs cfg p) = true := by
  simp only [settledFreqs, pointFreqs, chainFreqs, hchain] at *
  rw [cascade_append, withinLimits_append] at ha hb ⊢
  have hmix : withinLimits cfg (cascade p.busDiv (cpuFreq p.srcMhz p.cpuDiv) pre) = true ∧
      (suf ≠ [] → RatioLe (cascadeEnd p.busDiv (cpuFreq p.srcMhz p.cpuDiv) pre)
        (cascadeEnd (busDivs cfg b) (cpuFreq b.sourceFreqMhz b.divider) pre)) := by
    by_cases hempty : pre = []
    · obtain ⟨hsrc, hcpu⟩ := hnil hempty
      subst hempty
      rw [hcpu]
      exact ⟨rfl, fun _ => cpuFreq_le hsrc _⟩
    · obtain ⟨hsrc, hcpu⟩ := hpre hempty
      have hend : cascadeEnd p.busDiv (cpuFreq p.srcMhz p.cpuDiv) pre =
          cascadeEnd (busDivs cfg a) (cpuFreq a.sourceFreqMhz a.divider) pre := by
        rw [hsrc, hcpu]
        refine List.foldl_ext _ _ _ fun g x hx => ?_
        unfold busStep
        rw [hinner x hx]
      rw [hend, hsrc, hcpu, cascade_congr _ _ _ _ hinner]
      exact ⟨ha.1, fun hsuf => cascadeEnd_le hempty hsuf hle⟩
  obtain ⟨hfirst, hslower⟩ := hmix
  refine ⟨hfirst, ?_⟩
  by_cases hsuf : suf = []
  · subst hsuf; rfl
  · rw [cascade_congr _ _ _ _ houter]
    exact withinLimits_cascade_of_le (fun x hx => hdiv x (List.mem_append_right _ hx)) (hslower hsuf)
      (cascadeEnd_den_pos (cpuFreq_den_pos hfrac _) fun x hx => hdiv x (List.mem_append_left _ hx)) hb.2

/-! ### The first writes of a move -/

theorem div_mem_take_map (l : List Bus) (n : Nat) (b : Bus) :
    RegField.div b ∈ (l.map RegField.div).take n ↔ b ∈ l.take n := by
  rw [← List.map_take, List.mem_map_of_injective fun _ _ h => RegField.div.inj h]

theorem div_mem_take_muxLast (l : List Bus) (n : Nat) (b : Bus) :
    RegField.div b ∈ (l.map RegField.div ++ [RegField.muxSel]).take n ↔ b ∈ l.take n := by
  have hmux : RegField.div b ∉ [RegField.muxSel].take (n - (l.map RegField.div).length) :=
    fun h => by simpa using List.mem_of_mem_take h
  rw [List.take_append, List.mem_append, div_mem_take_map, or_iff_left hmux]

theorem muxSel_mem_take_muxLast (l : List Bus) (n : Nat) :
    RegField.muxSel ∈ (l.map RegField.div ++ [RegField.muxSel]).take n ↔ l.length < n := by
  have hdiv : RegField.muxSel ∉ (l.map RegField.div).take n := fun h => by simpa using List.mem_of_mem_take h
  rw [List.take_append, List.mem_append, or_iff_right hdiv, List.length_map, ← Nat.sub_pos_iff_lt]
  cases n - l.length <;> simp

/-- The CPU is the first bus of the chain, so it is among the first `i` as soon as there are any. -/
theorem cpu_mem_take {cfg : Cfg} {i : Nat} (h : (chain cfg).take i ≠ []) : Bus.cpu ∈ (chain cfg).take i := by
  obtain ⟨outer, hchain, -⟩ := chain_eq cfg
  rw [hchain] at h ⊢
  cases i with
  | zero => exact absurd rfl h
  | succ i => simp

theorem not_mem_take_of_mem_drop {cfg : Cfg} {i : Nat} {b : Bus} (h : b ∈ (chain cfg).drop i) : b ∉ (chain cfg).take i :=
  fun hmem => List.disjoint_take_drop (chain_nodup cfg) le_rfl hmem h

theorem not_mem_drop_of_mem_take {cfg : Cfg} {i : Nat} {b : Bus} (h : b ∈ (chain cfg).take i) : b ∉ (chain cfg).drop i :=
  fun hmem => not_mem_take_of_mem_drop hmem h

theorem cpu_mem_drop {cfg : Cfg} {i : Nat} (h : (chain cfg).take i = []) : Bus.cpu ∈ (chain cfg).drop i := by
  have hsplit := List.take_append_drop i (chain cfg)
  rw [h, List.nil_append] at hsplit
  rw [hsplit]
  simp [chain, busLimit]

/-- A move up, the select last: the outermost buses have the target's dividers first (R98 (U)). -/
theorem replayPoint_up {cfg : Cfg} {cur k : ClockConfig} (hup : goesUp cur k = true) (hlast : muxFirst cur k = false)
    (n : Nat) : ∃ i, (∀ b ∈ chain cfg, RegField.div b ∈ (applyOrder cfg cur k).take n ↔ b ∈ (chain cfg).drop i) ∧
      ((chain cfg).take i ≠ [] → RegField.muxSel ∉ (applyOrder cfg cur k).take n) := by
  have horder : applyOrder cfg cur k = (chain cfg).reverse.map RegField.div ++ [RegField.muxSel] := by
    rw [applyOrder_of_muxLast hlast, divOrder, if_pos hup]
  refine ⟨(chain cfg).length - n, fun b _ => ?_, fun hinner => ?_⟩
  · rw [horder, div_mem_take_muxLast, List.take_reverse, List.mem_reverse]
  · rw [horder, muxSel_mem_take_muxLast, List.length_reverse]
    intro hn
    exact hinner (by rw [Nat.sub_eq_zero_of_le hn.le]; rfl)

/-- A move down: the innermost buses have the target's dividers first, after the select or before it (R98 (D)). -/
theorem replayPoint_down {cfg : Cfg} {cur k : ClockConfig} (hdown : goesUp cur k = false) (n : Nat) :
    ∃ i, (∀ b ∈ chain cfg, RegField.div b ∈ (applyOrder cfg cur k).take n ↔ b ∈ (chain cfg).take i) ∧
      (muxFirst cur k = true → (chain cfg).take i ≠ [] → RegField.muxSel ∈ (applyOrder cfg cur k).take n) := by
  have hdivs : divOrder cfg cur k = chain cfg := by simp [divOrder, hdown]
  cases hmux : muxFirst cur k with
  | false =>
    have horder : applyOrder cfg cur k = (chain cfg).map RegField.div ++ [RegField.muxSel] := by
      rw [applyOrder_of_muxLast hmux, hdivs]
    exact ⟨n, fun b _ => by rw [horder, div_mem_take_muxLast], fun h => by cases h⟩
  | true =>
    have horder : applyOrder cfg cur k = RegField.muxSel :: (chain cfg).map RegField.div := by
      rw [applyOrder_of_muxFirst hmux, hdivs]
    cases n with
    | zero => exact ⟨0, fun b _ => by simp, fun _ h => absurd rfl h⟩
    | succ n => exact ⟨n, fun b _ => by simp [horder, div_mem_take_map], fun _ _ => by simp [horder]⟩

/-- Settles O20: under (U) the inner buses are the old configuration's and the outer ones the target's, under (D) the other way
round, and either way the slower configuration stands inside (`withinLimits_between`). -/
theorem monotoneMovesAreSafe : Obligations.MonotoneMovesAreSafe := by
  intro cfg cur k hfracCur hfracK hdiv hcur hk hcase n
  obtain ⟨hsrc, hcpu, hbus⟩ := replayPoint_eq cfg cur k n
  have hcpuMem : Bus.cpu ∈ chain cfg := by simp [chain, busLimit]
  obtain ⟨hup, hlast, hle⟩ | ⟨hdown, hmux, hle⟩ := hcase
  · obtain ⟨i, hwritten, hselect⟩ := replayPoint_up (cfg := cfg) hup hlast n
    have hsplit := (List.take_append_drop i (chain cfg)).symm
    refine withinLimits_between hsplit (fun x hx => (hdiv x hx).2) hfracK (fun x hx => ?_) (fun x hx => ?_) hcur hk hle
      (fun hinner => ?_) (fun hnone => ?_)
    · rw [hbus, if_neg]
      rw [hwritten x (List.mem_of_mem_take hx)]
      exact not_mem_drop_of_mem_take hx
    · rw [hbus, if_pos ((hwritten x (List.mem_of_mem_drop hx)).2 hx)]
    · refine ⟨hsrc.trans (if_neg (hselect hinner)), hcpu.trans (if_neg ?_)⟩
      rw [hwritten .cpu hcpuMem]
      exact not_mem_drop_of_mem_take (cpu_mem_take hinner)
    · refine ⟨?_, hcpu.trans (if_pos ((hwritten .cpu hcpuMem).2 (cpu_mem_drop hnone)))⟩
      have hslower : cur.sourceFreqMhz.toNat ≤ k.sourceFreqMhz.toNat := by
        rw [← Nat.not_lt, ← muxFirst_iff, hlast]; exact Bool.false_ne_true
      rw [hsrc]
      split
      · exact le_rfl
      · exact hslower
  · obtain ⟨i, hwritten, hselect⟩ := replayPoint_down (cfg := cfg) hdown n
    have hsplit := (List.take_append_drop i (chain cfg)).symm
    refine withinLimits_between hsplit (fun x hx => (hdiv x hx).1) hfracCur (fun x hx => ?_) (fun x hx => ?_) hk hcur hle
      (fun hinner => ?_) (fun hnone => ?_)
    · rw [hbus, if_pos ((hwritten x (List.mem_of_mem_take hx)).2 hx)]
    · rw [hbus, if_neg]
      rw [hwritten x (List.mem_of_mem_drop hx)]
      exact not_mem_take_of_mem_drop hx
    · refine ⟨?_, hcpu.trans (if_pos ((hwritten .cpu hcpuMem).2 (cpu_mem_take hinner)))⟩
      obtain hfirst | hsame := hmux
      · exact hsrc.trans (if_pos (hselect hfirst hinner))
      · rw [hsrc, hsame, ite_self]
    · refine ⟨?_, hcpu.trans (if_neg ?_)⟩
      · rw [hsrc]
        split
        · obtain hfirst | hsame := hmux
          · exact ((muxFirst_iff cur k).1 hfirst).le
          · rw [hsame]
        · exact le_rfl
      · rw [hwritten .cpu hcpuMem, hnone]
        simp

end Sys2Proof.Machine
end

section
/-! What the ops of the PLL controllers share (41_pll.md R101 to R111): their words, the check of the PllId, the state in which one
starts, one micro-step of it, and its end; then PLL_ENABLE and PLL_DISABLE. -/

namespace Sys2Proof.Machine

/-! ### Words and checks -/

/-- The command word alone decides an op whose format names no `ARG` register (30_encoding.md R61). -/
theorem decode_encode_anyArg {i : Instr} (h : ∀ imm a b, i.withOperands imm a = i.withOperands imm b) (a : Regs5) :
    decode (encode i).cmd a = .ok i := by
  rw [(rowMatch_encode i).decode_eq, h _ a (encode i).arg, withOperands_encode]

theorem pllIdOk_eq_true {cfg : Cfg} {id : PllId} (h : id.toNat < cfg.nPll) : pllIdOk cfg id = true := decide_eq_true h

theorem pllIdOk_eq_false {cfg : Cfg} {id : PllId} (h : cfg.nPll ≤ id.toNat) : pllIdOk cfg id = false :=
  decide_eq_false (Nat.not_lt.2 h)

/-! ### The start -/

theorem start_accepted {script : List Micro} (h : KeepsRunning script) (s : State) :
    Accepted s.env.picked s (start script s) := by
  rw [start_of_keepsRunning h]
  exact ⟨rfl, rfl, rfl, fun d hd => mboxAt_setMbox_ne hd _ _, mboxAt_setMbox_self _ _ _⟩

/-- The state in which the script of a PLL op starts, without the script; to mailboxes and sequencing it is `begun`. -/
def opened (s : State) : State :=
  setSeq { busy := true, owner := s.env.picked, script := [], result := none }
    (setMbox s.env.picked { mboxAt s s.env.picked with pending := false, running := true } s)

theorem start_eq_opened (script : List Micro) (s : State) : start script s = advance script (opened s) := rfl

theorem opened_running {s : State} (h : Ready s) : Running (opened s) := ⟨rfl, h.1⟩

/-! ### One micro-step -/

theorem calTimeout_atScript_any (id : PllId) (o : Option Word) (l : List Micro) (s : State) :
    calTimeout id o (atScript l s) = calTimeout id o s := by
  cases o with
  | none => exact raiseFatal_owner_atScript _ _ l (setPll id { pllAt s id with calState := .calFailed } s)
  | some f => exact calTimeout_atScript id f l s

theorem calPolled_atScript (id : PllId) (a : Bool) (l : List Micro) (s : State) :
    calPolled id a (atScript l s) = atScript l (calPolled id a s) := rfl

theorem forgetCurPll_atScript (id : PllId) (l : List Micro) (s : State) :
    forgetCurPll id (atScript l s) = atScript l (forgetCurPll id s) := by
  unfold forgetCurPll
  exact (apply_ite (atScript l) (s.lastCalPll = id) (setCurPll 0 s.lastCalPll s) s).symm

theorem pllDisableBody_atScript (id : PllId) (l : List Micro) (s : State) :
    pllDisableBody id (atScript l s) = atScript l (pllDisableBody id s) :=
  forgetCurPll_atScript id l (setPll id { pllAt s id with enabled := false, configuredFreqMhz := 0, calState := .calIdle }
    (emit (.w (.pllPwr id) 0) s))

/-- The micro-steps of the PLL ops. -/
def isPllStep : Micro → Bool
  | .pllEnable _ | .pllDisable _ | .calDivide _ _ _ | .calStart _ | .calPoll _ _ | .calStop _ _ => true
  | _ => false

/-- Such a micro-step does not look at the script it stands in. -/
theorem runMicro_atScript {m : Micro} (hm : isPllStep m = true) (rest l : List Micro) (a : Bool) (s : State) :
    runMicro m rest a (atScript l s) = runMicro m rest a s := by
  cases m with
  | pllEnable | calDivide | calStart | calStop =>
    rw [runMicro_plain (a := a) rfl, runMicro_plain (a := a) rfl, microBody_atScript, advance_atScript]
  | pllDisable id =>
    dsimp only [runMicro, doPllDisable]
    rw [pllDisableBody_atScript, advance_atScript, raiseFatal_owner_atScript]
    rfl
  | calPoll id o =>
    dsimp only [runMicro, doCalPoll]
    rw [calPolled_atScript, advance_atScript, advance_atScript, calTimeout_atScript_any]
    rfl
  | _ => cases hm

/-- A sequencer action of a running PLL op. -/
theorem sequencerStep_pllStep {s : State} (hs : Running s) {m : Micro} (hm : isPllStep m = true) (rest : List Micro)
    (a : Bool) : sequencerStep a (advance (m :: rest) s) = runMicro m rest a s := by
  have hne : m ≠ .setProgrammed ∧ ∀ e, m ≠ .finish e := by refine ⟨?_, fun e => ?_⟩ <;> rintro rfl <;> cases hm
  have hexpand : expand s m = none := by
    cases m with
    | setConfig | restoreSaved | bringUp | apply | program => cases hm
    | _ => rfl
  have hrun : (atScript (m :: rest) s).seq.busy = true ∧ (atScript (m :: rest) s).fault.halted = false := hs
  rw [advance_eq_atScript hne]
  unfold sequencerStep
  rw [if_pos hrun, resolveHead_atScript, show (atScript (m :: rest) s).seq.script = m :: rest from rfl, resolveHead, hexpand]
  exact runMicro_atScript hm rest _ a s

/-! ### The end -/

/-- The end of the op in the state its micro-steps have led to, as its mailbox and the sequencing see it. -/
theorem release_endOp_opened {s v : State} (h : SameOps (opened s) v) (k : StatusCode) :
    Released s.env.picked (release (endOp s.env.picked k v)) ∧
      OpEndedPlain s.env.picked k s (release (endOp s.env.picked k v)) :=
  release_endOp_begun h.mbox h.seq k

theorem SameOps.owner_opened {s v : State} (h : SameOps (opened s) v) : v.seq.owner = s.env.picked := by
  rw [h.seq]; rfl

theorem finishOp_opened {s v : State} (h : SameOps (opened s) v) :
    Released s.env.picked (finishOp .plain v) ∧ OpEndedPlain s.env.picked .ok s (finishOp .plain v) := by
  have hfinish : finishOp .plain v = release (endOp s.env.picked .ok v) := by rw [← h.owner_opened]; rfl
  rw [hfinish]
  exact release_endOp_opened h .ok

theorem raiseFatal_opened {s v : State} (h : SameOps (opened s) v) (k : StatusCode) (info : BitVec 16) :
    Released s.env.picked (raiseFatal v.seq.owner true k info v) ∧
      OpEndedPlain s.env.picked k s (raiseFatal v.seq.owner true k info v) := by
  rw [raiseFatal_owner, h.owner_opened]
  refine release_endOp_begun ?_ ?_ k
  · rw [recordFault_mbox]; exact h.mbox
  · rw [recordFault_seq]; exact h.seq

/-- What a PLL op leaves alone, whatever it does to the fields named. -/
theorem state_eq_of_pllFields {s u : State} {plls : Vector Pll 8} {freq : Word} {last : PllId} {fault : FaultReg}
    {trace : List Event} (hcfg : u.cfg = s.cfg) (hclk : u.clk = s.clk) (hslp : u.slp = s.slp) (henv : u.env = s.env)
    (hplls : u.plls = plls) (hfreq : u.curPllFreqMhz = freq) (hlast : u.lastCalPll = last) (hfault : u.fault = fault)
    (htrace : u.trace = trace) :
    u = { s with
      mbox := u.mbox, seq := u.seq, plls := plls, curPllFreqMhz := freq, lastCalPll := last, fault := fault,
      trace := trace } := by
  rw [← hcfg, ← hclk, ← hslp, ← henv, ← hplls, ← hfreq, ← hlast, ← hfault, ← htrace]

theorem PllReplaced.self_and_others {id : PllId} {p : Pll} {s t : State} (h : PllReplaced id p s t) (hid : id.toNat < 8) :
    pllAt t id = p ∧ OtherPllsSame id s t :=
  ⟨(h id).trans (if_pos ⟨rfl, hid⟩), fun j hj => (h j).trans (if_neg fun hh => hj hh.1)⟩

/-! ### PLL_ENABLE -/

theorem pllEnable_run {s : State} (h : Ready s) (id : PllId) (a : Bool) :
    sequencerStep a (start [.pllEnable id, .finish .plain] s) = finishOp .plain (pllEnableBody id (opened s)) := by
  rw [start_eq_opened, sequencerStep_pllStep (opened_running h) rfl]
  rfl

/-- Settles O24: the first check fails, or the one micro-step is `pllEnableBody` and the end of the op. -/
theorem pllEnableRuns : Obligations.PllEnableRuns := by
  refine ⟨fun id a => decode_encode_anyArg (i := .pllEnable id) (fun _ _ _ => rfl) a, fun _ => rfl, fun id s hcfg hready =>
    ⟨fun habsent => ?_, fun hpresent => ?_⟩⟩
  · refine ⟨_, sequenced_refused hready ?_ (fun s => s) _, endOp_refusedWith _ .badPllId s⟩
    rw [pllIdOk_eq_false habsent]; rfl
  · have hok := pllIdOk_eq_true hpresent
    refine ⟨_, sequenced_started hready (by rw [hok]; rfl) (fun s => s) _,
      start_accepted (keepsRunning_cons _ (by simp) (by simp)) s, ?_⟩
    rintro answer u rfl
    rw [pllEnable_run hready]
    obtain ⟨hself, hothers⟩ :=
      PllReplaced.self_and_others (fun j => pllAt_pllEnableBody id j (opened s)) (toNat_lt_of_pllIdOk hcfg hok)
    obtain ⟨hreleased, hended⟩ := finishOp_opened (microBody_sameOps answer (.pllEnable id) (opened s))
    exact ⟨state_eq_of_pllFields rfl rfl rfl rfl rfl rfl rfl rfl rfl, hself, hothers, hreleased, hended⟩

/-! ### PLL_DISABLE -/

theorem pllDisable_run {s : State} (h : Ready s) (id : PllId) (a : Bool) :
    sequencerStep a (start [.pllDisable id, .finish .plain] s) = doPllDisable id [.finish .plain] (opened s) := by
  rw [start_eq_opened, sequencerStep_pllStep (opened_running h) rfl]
  rfl

theorem doPllDisable_held {id : PllId} {s : State} (h : (pllAt s id).consumerCount ≠ 0) (rest : List Micro) :
    doPllDisable id rest s = raiseFatal s.seq.owner true .consumerAccountingViolation (pllFaultInfo id 1) s :=
  if_neg h

theorem doPllDisable_free {id : PllId} {s : State} (h : (pllAt s id).consumerCount = 0) (rest : List Micro) :
    doPllDisable id rest s = advance rest (pllDisableBody id s) :=
  if_pos h

/-- The fatal fault of a micro-step touches the fault record, the mailbox and the sequencing (R107, 60_exceptions.md R156). -/
theorem raiseFatal_opened_frame {s : State} (h : s.fault.halted = false) (k : StatusCode) (info : BitVec 16) :
    raiseFatal (opened s).seq.owner true k info (opened s) = { s with
      mbox := (raiseFatal (opened s).seq.owner true k info (opened s)).mbox,
      seq := (raiseFatal (opened s).seq.owner true k info (opened s)).seq,
      fault := { halted := true, code := codeByte k, info := info } } := by
  have hrun : (opened s).fault.halted = false := h
  exact state_eq_of_pllFields (by simp [opened]) (by simp [opened]) (by simp [opened]) (by simp [opened]) (by simp [opened])
    (by simp [opened]) (by simp [opened]) ((raiseFatal_fault ..).trans (by rw [hrun]; rfl)) (by simp [opened])

theorem pllDisableBody_sameOps (id : PllId) (s : State) : SameOps s (pllDisableBody id s) :=
  ⟨by simp, by simp, by simp, by simp, by simp, by simp⟩

theorem pllDisable_frame (id : PllId) (s : State) :
    finishOp .plain (pllDisableBody id (opened s)) = { s with
      mbox := (finishOp .plain (pllDisableBody id (opened s))).mbox,
      seq := (finishOp .plain (pllDisableBody id (opened s))).seq,
      plls := (finishOp .plain (pllDisableBody id (opened s))).plls,
      curPllFreqMhz := if s.lastCalPll = id then 0 else s.curPllFreqMhz,
      trace := s.trace ++ [.w (.pllPwr id) 0] } := by
  have hfreq := pllDisableBody_curPllFreqMhz id (opened s)
  exact state_eq_of_pllFields (by simp [opened]) (by simp [opened]) (by simp [opened]) (by simp [opened]) rfl
    ((finishOp_curPllFreqMhz ..).trans hfreq) (by simp [opened]) (by simp [opened]) (by simp [opened])

/-- Settles O28: one of two checks fails, or the one micro-step finds a consumer and faults, or it disables. -/
theorem pllDisableRuns : Obligations.PllDisableRuns := by
  refine ⟨fun id a => decode_encode_anyArg (i := .pllDisable id) (fun _ _ _ => rfl) a, fun _ => rfl, fun id s hcfg hready =>
    ⟨fun habsent => ?_, fun hpresent hsource => ?_, fun hpresent hsource => ?_⟩⟩
  · refine ⟨_, sequenced_refused hready ?_ (fun s => s) _, endOp_refusedWith _ .badPllId s⟩
    rw [pllIdOk_eq_false habsent]; rfl
  · refine ⟨_, sequenced_refused hready ?_ (fun s => s) _, endOp_refusedWith _ .pllInUse s⟩
    simp [firstFailing_cons, pllIdOk_eq_true hpresent, hsource]
  · have hok := pllIdOk_eq_true hpresent
    refine ⟨_, sequenced_started hready (by simp [firstFailing_cons, hok, hsource]) (fun s => s) _,
      start_accepted (keepsRunning_cons _ (by simp) (by simp)) s, ?_⟩
    rintro answer u rfl
    rw [pllDisable_run hready]
    by_cases hcount : (pllAt s id).consumerCount = 0
    · rw [doPllDisable_free (s := opened s) hcount, advance_finish]
      obtain ⟨hself, hothers⟩ :=
        PllReplaced.self_and_others (fun j => pllAt_pllDisableBody id j (opened s)) (toNat_lt_of_pllIdOk hcfg hok)
      obtain ⟨hreleased, hended⟩ := finishOp_opened (pllDisableBody_sameOps id (opened s))
      exact ⟨hreleased, fun hheld => absurd hcount hheld, fun _ => ⟨pllDisable_frame id s, hself, hothers, hended⟩⟩
    · rw [doPllDisable_held (s := opened s) hcount]
      obtain ⟨hreleased, hended⟩ :=
        raiseFatal_opened (.refl (opened s)) .consumerAccountingViolation (pllFaultInfo id 1)
      exact ⟨hreleased, fun _ => ⟨raiseFatal_opened_frame hready.1 _ _, hended⟩, fun hfree => absurd hfree hcount⟩

end Sys2Proof.Machine
end

section
/-! PLL_CFG_CAL (41_pll.md R103, R104): its checks, the handshake up to any number of polls that answer 0, and its two ends. -/

namespace Sys2Proof.Machine

/-! ### The checks -/

/-- The checks of PLL_CFG_CAL in order (R104); `exec_pllCfgCal_refused` ties them to the op. -/
def calChecks (id : PllId) (x g : Word) (s : State) : List (Bool × StatusCode) :=
  [(pllIdOk s.cfg id, .badPllId), (decide (1 ≤ x.toNat) && decide (1 ≤ g.toNat), .invalidConfig),
    ((pllAt s id).enabled, .pllNotEnabled), (decide (s.clk.cur.source = .crystal), .notOnCrystal)]

theorem exec_pllCfgCal_refused {id : PllId} {x g : Word} {s : State} {k : StatusCode} (h : Ready s)
    (hk : firstFailing (calChecks id x g s) = some k) : exec (.pllCfgCal id x g) s = .next (endOp s.env.picked k s) :=
  sequenced_refused h hk (fun s => s) _

theorem one_le_toNat_iff (x : Word) : 1 ≤ x.toNat ↔ x ≠ 0 := by
  bv_omega

/-- Settles O27: in each case the first failing check is the one named. -/
theorem pllCfgCalRefusals : Obligations.PllCfgCalRefusals := by
  intro id x g s hready
  obtain ⟨t, ht⟩ := exec_total (.pllCfgCal id x g) s
  have refused {k : StatusCode} (hk : firstFailing (calChecks id x g s) = some k) : RefusedWith s.env.picked k s t := by
    obtain rfl : endOp s.env.picked k s = t := by simpa [exec_pllCfgCal_refused hready hk] using ht
    exact endOp_refusedWith _ k s
  refine ⟨t, ht, fun habsent => refused ?_, fun hpresent hzero => refused ?_, fun hpresent hx hg hoff => refused ?_,
    fun hpresent hx hg hon hsource => refused ?_⟩
  · simp [calChecks, firstFailing_cons, pllIdOk_eq_false habsent]
  · have hinvalid : ¬(1 ≤ x.toNat ∧ 1 ≤ g.toNat) := by
      rw [one_le_toNat_iff, one_le_toNat_iff]; tauto
    simp only [calChecks, firstFailing_cons, pllIdOk_eq_true hpresent, ← Bool.decide_and, hinvalid]
    rfl
  · simp [calChecks, firstFailing_cons, pllIdOk_eq_true hpresent, (one_le_toNat_iff x).2 hx, (one_le_toNat_iff g).2 hg, hoff]
  · simp [calChecks, firstFailing_cons, pllIdOk_eq_true hpresent, (one_le_toNat_iff x).2 hx, (one_le_toNat_iff g).2 hg, hon,
      hsource]

/-! ### The handshake -/

/-- The script of PLL_CFG_CAL (R104). -/
def calScript (id : PllId) (x g : Word) : List Micro :=
  [.calDivide id x g, .calStart id, .calPoll id none, .calStop id g, .finish .plain]

/-- The state after the divider write, the calibration start and `n` polls that answer 0 (R103). -/
def calWaited (id : PllId) (x g : Word) (n : Nat) (s : State) : State :=
  polledZero id n (doCalStart id (doCalDivide id x g s))

theorem calWaited_sameOps (id : PllId) (x g : Word) (n : Nat) (s : State) : SameOps s (calWaited id x g n s) :=
  (bodies_sameOps false [.calDivide id x g, .calStart id] s).trans (polledZero_sameOps id n _)

theorem calWaited_clk (id : PllId) (x g : Word) (n : Nat) (s : State) : (calWaited id x g n s).clk = s.clk := by
  obtain ⟨hclk, -, -⟩ := polledZero_clk id n (doCalStart id (doCalDivide id x g s))
  rw [calWaited, hclk, doCalStart_clk, doCalDivide_clk]

theorem calWaited_curPll (id : PllId) (x g : Word) (n : Nat) (s : State) :
    (calWaited id x g n s).lastCalPll = s.lastCalPll ∧
      (calWaited id x g n s).curPllFreqMhz = if s.lastCalPll = id then 0 else s.curPllFreqMhz := by
  obtain ⟨-, hlast, hfreq⟩ := polledZero_clk id n (doCalStart id (doCalDivide id x g s))
  exact ⟨hlast.trans (doCalDivide_lastCalPll id x g s), hfreq.trans (doCalDivide_curPllFreqMhz id x g s)⟩

theorem calWaited_trace (id : PllId) (x g : Word) (n : Nat) (s : State) :
    (calWaited id x g n s).trace =
      s.trace ++ [.w (.pllDiv id) (Config.pllDivWords id x g), .b (.calStart id) 1] ++
        List.replicate n (.r (.calDone id) 0) := by
  rw [calWaited, polledZero_trace, doCalStart_trace, doCalDivide_trace, List.append_assoc s.trace]
  rfl

theorem calWaited_replaced {id : PllId} (hid : id.toNat < 8) (x g : Word) (n : Nat) (s : State) :
    PllReplaced id { pllAt s id with
      configuredFreqMhz := 0, calState := .calStarted, calPollsLeft := s.cfg.calTimeoutPolls - n } s (calWaited id x g n s) := by
  intro j
  rw [calWaited, pllAt_polledZero, pllAt_doCalStart, pllAt_doCalStart, pllAt_doCalDivide, pllAt_doCalDivide]
  by_cases hj : j = id
  · simp [hj, hid]
  · simp [hj]

/-- One more poll answers 0, and polls are left (R103). -/
theorem sequencerStep_pollAgain {s : State} (hs : Running s) {id : PllId} (hid : id.toNat < 8)
    (hleft : 1 < (pllAt s id).calPollsLeft) (o : Option Word) (rest : List Micro) :
    sequencerStep false (advance (.calPoll id o :: rest) s) = advance (.calPoll id o :: rest) (calPolled id false s) := by
  have hmore : (pllAt (calPolled id false s) id).calPollsLeft ≠ 0 := by
    rw [pllAt_calPolled, if_pos ⟨rfl, hid⟩]
    exact Nat.sub_ne_zero_of_lt hleft
  rw [sequencerStep_pllStep hs rfl]
  exact if_neg hmore

/-- The last allowed poll answers 0 (R103). -/
theorem sequencerStep_pollLast {s : State} (hs : Running s) {id : PllId} (hid : id.toNat < 8)
    (hleft : (pllAt s id).calPollsLeft = 1) (o : Option Word) (rest : List Micro) :
    sequencerStep false (advance (.calPoll id o :: rest) s) = calTimeout id o (calPolled id false s) := by
  have hnone : (pllAt (calPolled id false s) id).calPollsLeft = 0 := by
    rw [pllAt_calPolled, if_pos ⟨rfl, hid⟩, hleft]
  rw [sequencerStep_pllStep hs rfl]
  exact if_pos hnone

theorem runSequencer_append (as bs : List Bool) (s : State) :
    runSequencer (as ++ bs) s = runSequencer bs (runSequencer as s) := List.foldl_append

theorem runSequencer_cons (a : Bool) (as : List Bool) (s : State) :
    runSequencer (a :: as) s = runSequencer as (sequencerStep a s) := rfl

/-- Polls that answer 0 and are not the last allowed one. -/
theorem runSequencer_pollsAgain {id : PllId} (hid : id.toNat < 8) (o : Option Word) (rest : List Micro) {n : Nat} {s : State}
    (hs : Running s) (hn : n < (pllAt s id).calPollsLeft) :
    runSequencer (List.replicate n false) (advance (.calPoll id o :: rest) s) =
      advance (.calPoll id o :: rest) (polledZero id n s) := by
  induction n generalizing s with
  | zero => rfl
  | succ n ih =>
    have hleft : n < (pllAt (calPolled id false s) id).calPollsLeft := by
      rw [pllAt_calPolled, if_pos ⟨rfl, hid⟩]
      exact Nat.lt_sub_of_add_lt hn
    rw [List.replicate_succ, runSequencer_cons, sequencerStep_pollAgain hs hid (by omega), polledZero_succ]
    exact ih hs hleft

/-- The handshake up to `n` polls that answer 0, another one being allowed. -/
theorem runSequencer_calWaits {s : State} (h : Ready s) {id : PllId} (hid : id.toNat < 8) (x g : Word) {n : Nat}
    (hn : n < s.cfg.calTimeoutPolls) (a b : Bool) :
    runSequencer ([a, b] ++ List.replicate n false) (start (calScript id x g) s) =
      advance [.calPoll id none, .calStop id g, .finish .plain] (calWaited id x g n (opened s)) := by
  have hdivided : Running (doCalDivide id x g (opened s)) :=
    (microBody_sameOps a (.calDivide id x g) _).running (opened_running h)
  have hstarted : Running (doCalStart id (doCalDivide id x g (opened s))) :=
    (microBody_sameOps b (.calStart id) _).running hdivided
  have hpolls : n < (pllAt (doCalStart id (doCalDivide id x g (opened s))) id).calPollsLeft := by
    rw [pllAt_doCalStart, if_pos ⟨rfl, hid⟩, doCalDivide_cfg]
    exact hn
  rw [runSequencer_append, runSequencer_cons, runSequencer_cons, start_eq_opened, calScript,
    sequencerStep_pllStep (opened_running h) rfl, runMicro, sequencerStep_pllStep hdivided rfl, runMicro]
  exact runSequencer_pollsAgain hid none _ hstarted hpolls

theorem calWaited_running {s : State} (h : Ready s) (id : PllId) (x g : Word) (n : Nat) :
    Running (calWaited id x g n (opened s)) :=
  (calWaited_sameOps id x g n _).running (opened_running h)

theorem calScript_accepted (id : PllId) (x g : Word) (s : State) :
    Accepted s.env.picked s (start (calScript id x g) s) :=
  start_accepted (keepsRunning_cons _ (by simp) (by simp)) s

/-! ### A poll answers 1 -/

/-- The state after the poll that answers 1 and the calibration stop (R103). -/
def calDone (id : PllId) (x g : Word) (n : Nat) (s : State) : State :=
  doCalStop id g (calPolled id true (calWaited id x g n s))

theorem calDone_sameOps (id : PllId) (x g : Word) (n : Nat) (s : State) : SameOps s (calDone id x g n s) :=
  (calWaited_sameOps id x g n s).trans (bodies_sameOps true [.calPoll id none, .calStop id g] _)

theorem calDone_trace (id : PllId) (x g : Word) (n : Nat) (s : State) :
    (calDone id x g n s).trace =
      s.trace ++ [.w (.pllDiv id) (Config.pllDivWords id x g), .b (.calStart id) 1] ++
        List.replicate n (.r (.calDone id) 0) ++ [.r (.calDone id) 1, .b (.calStop id) 1] := by
  rw [calDone, doCalStop_trace, calPolled_trace, calWaited_trace, List.append_assoc (_ ++ List.replicate _ _)]
  rfl

theorem calDone_replaced {id : PllId} (hid : id.toNat < 8) (x g : Word) (n : Nat) (s : State) :
    PllReplaced id { pllAt s id with
      configuredFreqMhz := g, calState := .calIdle, calPollsLeft := s.cfg.calTimeoutPolls - n - 1 } s (calDone id x g n s) := by
  intro j
  have hwaited := calWaited_replaced hid x g n s
  rw [calDone, pllAt_doCalStop, pllAt_calPolled, pllAt_calPolled, hwaited id, hwaited j]
  by_cases hj : j = id
  · simp [hj, hid]
  · simp [hj]

theorem runSequencer_calSucceeds {s : State} (h : Ready s) {id : PllId} (hid : id.toNat < 8) (x g : Word) {n : Nat}
    (hn : n < s.cfg.calTimeoutPolls) (a b z : Bool) :
    runSequencer ([a, b] ++ List.replicate n false ++ [true, z]) (start (calScript id x g) s) =
      finishOp .plain (calDone id x g n (opened s)) := by
  have hwaited := calWaited_running h id x g n
  have hpolled : Running (calPolled id true (calWaited id x g n (opened s))) :=
    (microBody_sameOps true (.calPoll id none) _).running hwaited
  rw [runSequencer_append, runSequencer_calWaits h hid x g hn, runSequencer_cons, sequencerStep_pllStep hwaited rfl]
  exact sequencerStep_pllStep hpolled (m := .calStop id g) rfl _ z

/-- Settles O25: the run ends in `calDone` of the state in which the op starts. -/
theorem pllCfgCalSucceeds : Obligations.PllCfgCalSucceeds := by
  intro id x g s k a b z hcfg hready hid hx hg hon hsource hk
  have hheld := toNat_lt_of_pllIdOk hcfg hid
  refine ⟨start (calScript id x g) s, exec_pllCfgCal hready hid hx hg hon hsource, calScript_accepted id x g s, ?_⟩
  rintro u rfl
  have hops := calDone_sameOps id x g k (opened s)
  have hclk := calWaited_clk id x g k (opened s)
  obtain ⟨hself, hothers⟩ := (calDone_replaced hheld x g k (opened s)).self_and_others hheld
  obtain ⟨hreleased, hended⟩ := finishOp_opened hops
  rw [runSequencer_calSucceeds hready hheld x g hk]
  exact ⟨state_eq_of_pllFields hops.cfg hclk hops.slp hops.env rfl rfl rfl hops.fault (calDone_trace id x g k (opened s)),
    hself, hothers, hreleased, hended⟩

/-! ### No poll answers 1 -/

/-- The controller's part of the timeout (R103). -/
def markFailed (id : PllId) (s : State) : State := setPll id { pllAt s id with calState := .calFailed } s

theorem markFailed_sameOps (id : PllId) (s : State) : SameOps s (markFailed id s) := ⟨rfl, rfl, rfl, rfl, rfl, rfl⟩

/-- The timeout of PLL_CFG_CAL itself: the controller has failed, then the fault (R103). -/
theorem calTimeout_none (id : PllId) (s : State) :
    calTimeout id none s =
      raiseFatal (markFailed id s).seq.owner true .calibrationTimeout (pllFaultInfo id 0) (markFailed id s) := rfl

theorem calTimeout_none_ends {s v : State} (h : SameOps (opened s) v) (id : PllId) :
    Released s.env.picked (calTimeout id none v) ∧
      OpEndedPlain s.env.picked .calibrationTimeout s (calTimeout id none v) :=
  raiseFatal_opened (h.trans (markFailed_sameOps id v)) .calibrationTimeout (pllFaultInfo id 0)

theorem runSequencer_calTimesOut {s : State} (h : Ready s) {id : PllId} (hid : id.toNat < 8) (x g : Word)
    (hpolls : 1 ≤ s.cfg.calTimeoutPolls) (a b : Bool) :
    runSequencer ([a, b] ++ List.replicate s.cfg.calTimeoutPolls false) (start (calScript id x g) s) =
      calTimeout id none (calWaited id x g s.cfg.calTimeoutPolls (opened s)) := by
  obtain ⟨n, hn⟩ : ∃ n, s.cfg.calTimeoutPolls = n + 1 := ⟨_, (Nat.succ_pred_eq_of_pos hpolls).symm⟩
  have hleft : (pllAt (calWaited id x g n (opened s)) id).calPollsLeft = 1 := by
    rw [calWaited_replaced hid x g n (opened s) id, if_pos ⟨rfl, hid⟩]
    show s.cfg.calTimeoutPolls - n = 1
    omega
  have hpolled : calWaited id x g (n + 1) (opened s) = calPolled id false (calWaited id x g n (opened s)) :=
    Function.iterate_succ_apply' (calPolled id false) n _
  rw [hn, List.replicate_succ', ← List.append_assoc, runSequencer_append,
    runSequencer_calWaits h hid x g (hn ▸ Nat.lt_succ_self n), hpolled]
  exact sequencerStep_pollLast (calWaited_running h id x g n) hid hleft none _

theorem calTimeout_none_replaced {id : PllId} (hid : id.toNat < 8) (x g : Word) (s : State) :
    PllReplaced id { pllAt s id with configuredFreqMhz := 0, calState := .calFailed, calPollsLeft := 0 } s
      (calTimeout id none (calWaited id x g s.cfg.calTimeoutPolls s)) := by
  intro j
  have hwaited := calWaited_replaced hid x g s.cfg.calTimeoutPolls s
  rw [pllAt_calTimeout, hwaited id, hwaited j]
  by_cases hj : j = id
  · simp [hj, hid]
  · simp [hj]

theorem calTimeout_none_frame {s v : State} (h : SameOps (opened s) v) (hrun : s.fault.halted = false) (hclk : v.clk = s.clk)
    (id : PllId) :
    calTimeout id none v = { s with
      mbox := (calTimeout id none v).mbox, seq := (calTimeout id none v).seq, plls := (calTimeout id none v).plls,
      curPllFreqMhz := v.curPllFreqMhz, lastCalPll := v.lastCalPll,
      fault := { halted := true, code := 0x02, info := pllFaultInfo id 0 }, trace := v.trace } := by
  have hfault : (markFailed id v).fault.halted = false := (congrArg FaultReg.halted h.fault).trans hrun
  have hraised : (calTimeout id none v).fault = { halted := true, code := 0x02, info := pllFaultInfo id 0 } := by
    rw [calTimeout_none, raiseFatal_fault, hfault]; rfl
  exact state_eq_of_pllFields ((calTimeout_cfg ..).trans h.cfg) ((raiseFatal_clk ..).trans hclk)
    ((raiseFatal_slp ..).trans h.slp) ((raiseFatal_env ..).trans h.env) rfl (raiseFatal_curPllFreqMhz ..)
    (raiseFatal_lastCalPll ..) hraised (calTimeout_trace ..)

/-- Settles O26: the run ends in the timeout of `calWaited` after all polls. -/
theorem pllCfgCalTimesOut : Obligations.PllCfgCalTimesOut := by
  intro id x g s a b hcfg hready hid hx hg hon hsource
  have hheld := toNat_lt_of_pllIdOk hcfg hid
  refine ⟨start (calScript id x g) s, exec_pllCfgCal hready hid hx hg hon hsource, ?_⟩
  rintro u rfl
  have hops := calWaited_sameOps id x g s.cfg.calTimeoutPolls (opened s)
  obtain ⟨hlast, hfreq⟩ := calWaited_curPll id x g s.cfg.calTimeoutPolls (opened s)
  have htrace := calWaited_trace id x g s.cfg.calTimeoutPolls (opened s)
  obtain ⟨hself, hothers⟩ := (calTimeout_none_replaced hheld x g (opened s)).self_and_others hheld
  have hframe := calTimeout_none_frame hops hready.1 (calWaited_clk id x g _ (opened s)) id
  rw [hlast, hfreq, htrace] at hframe
  rw [runSequencer_calTimesOut hready hheld x g (calTimeoutPolls_pos hcfg)]
  exact ⟨hframe, hself, hothers, calTimeout_none_ends hops id⟩

end Sys2Proof.Machine
end

section
/-! Consumer accounting (41_pll.md R108 to R111): PLL_ADD_CONSUMER and PLL_REMOVE_CONSUMER, and the counts under every step. -/

namespace Sys2Proof.Machine

/-! ### Immediate ops -/

theorem immediate_refused {s : State} (hrun : s.fault.halted = false) {checks : List (Bool × StatusCode)} {k : StatusCode}
    (hk : firstFailing checks = some k) (body : State → State) :
    immediate checks body s = .next (endOp s.env.picked k s) := by
  simp [immediate, hrun, hk]

theorem immediate_runs {s : State} (hrun : s.fault.halted = false) {checks : List (Bool × StatusCode)}
    (hpass : firstFailing checks = none) (body : State → State) : immediate checks body s = .next (body s) := by
  simp [immediate, hrun, hpass]

/-- The end of an immediate op whose body touches no mailbox. -/
theorem endOp_opEndedPlain {s v : State} (h : ∀ d, mboxAt v d = mboxAt s d) (c : Core) (k : StatusCode) :
    OpEndedPlain c k s (endOp c k v) := by
  refine ⟨⟨fun d hd => (mboxAt_endOp_ne hd k v).trans (h d), ?_⟩, ?_⟩
  · simp [EndedWith, h]
  · simp [h]

/-- What a new consumer count leaves alone, and the count itself (R109, R110). -/
theorem endOp_setConsumers {s : State} {id : PllId} (hid : id.toNat < 8) (c : Core) (n : Word) :
    pllAt (endOp c .ok (setConsumers id n s)) id = { pllAt s id with consumerCount := n } ∧
      OtherPllsSame id s (endOp c .ok (setConsumers id n s)) ∧ OpEndedPlain c .ok s (endOp c .ok (setConsumers id n s)) := by
  obtain ⟨hself, hothers⟩ := (setConsumers_replaced id n s).self_and_others hid
  exact ⟨hself, hothers, endOp_opEndedPlain (fun _ => rfl) c .ok⟩

theorem toNat_add_one {n : Word} (h : n.toNat < 2 ^ 32 - 1) : (n + 1).toNat = n.toNat + 1 := by
  bv_omega

theorem toNat_sub_one {n : Word} (h : n ≠ 0) : (n - 1).toNat + 1 = n.toNat := by
  bv_omega

/-! ### PLL_ADD_CONSUMER -/

theorem exec_pllAddConsumer_refused {id : PllId} {s : State} {k : StatusCode} (hrun : s.fault.halted = false)
    (hk : firstFailing [(pllIdOk s.cfg id, .badPllId),
      (decide ((pllAt s id).consumerCount.toNat < 2 ^ 32 - 1), .consumerOverflow)] = some k) :
    exec (.pllAddConsumer id) s = .next (endOp s.env.picked k s) := by
  rw [exec, execPllAddConsumer, immediate_refused hrun hk]

theorem exec_pllAddConsumer {id : PllId} {s : State} (hrun : s.fault.halted = false) (hid : id.toNat < s.cfg.nPll)
    (hcount : (pllAt s id).consumerCount.toNat < 2 ^ 32 - 1) :
    exec (.pllAddConsumer id) s =
      .next (endOp s.env.picked .ok (setConsumers id ((pllAt s id).consumerCount + 1) s)) := by
  rw [exec, execPllAddConsumer, pllIdOk_eq_true hid, decide_eq_true hcount, immediate_runs hrun rfl]

/-- Settles O29: one of two checks fails, or the body is one `setConsumers`; below the largest count the sum does not wrap. -/
theorem pllAddConsumerRuns : Obligations.PllAddConsumerRuns := by
  refine ⟨fun id a => decode_encode_anyArg (i := .pllAddConsumer id) (fun _ _ _ => rfl) a, fun _ => rfl,
    fun id s hcfg hrun => ?_⟩
  obtain ⟨t, ht⟩ := exec_total (.pllAddConsumer id) s
  refine ⟨t, ht, fun habsent => ?_, fun hpresent hfull => ?_, fun hpresent hcount => ?_⟩
  · obtain ⟨⟩ := ht.symm.trans (exec_pllAddConsumer_refused hrun (by rw [pllIdOk_eq_false habsent]; rfl))
    exact endOp_refusedWith _ .badPllId s
  · obtain ⟨⟩ := ht.symm.trans (exec_pllAddConsumer_refused hrun (by rw [pllIdOk_eq_true hpresent, hfull]; rfl))
    exact endOp_refusedWith _ .consumerOverflow s
  · obtain ⟨⟩ := ht.symm.trans (exec_pllAddConsumer hrun hpresent hcount)
    obtain ⟨hself, hothers, hended⟩ := endOp_setConsumers (s := s) (hpresent.trans_le (nPll_le_of_cfgOk hcfg)) s.env.picked
      ((pllAt s id).consumerCount + 1)
    refine ⟨rfl, hself, ?_, hothers, hended⟩
    rw [hself]
    exact toNat_add_one hcount

/-! ### PLL_REMOVE_CONSUMER -/

theorem exec_pllRemoveConsumer_refused {id : PllId} {s : State} (hrun : s.fault.halted = false)
    (hid : s.cfg.nPll ≤ id.toNat) : exec (.pllRemoveConsumer id) s = .next (endOp s.env.picked .badPllId s) := by
  rw [exec, execPllRemoveConsumer, pllIdOk_eq_false hid, immediate_refused hrun rfl]

theorem exec_pllRemoveConsumer {id : PllId} {s : State} (hrun : s.fault.halted = false) (hid : id.toNat < s.cfg.nPll) :
    exec (.pllRemoveConsumer id) s = .next (if (pllAt s id).consumerCount = 0 then
        raiseFatal s.env.picked false .consumerAccountingViolation (pllFaultInfo id 2) s
      else endOp s.env.picked .ok (setConsumers id ((pllAt s id).consumerCount - 1) s)) := by
  rw [exec, execPllRemoveConsumer, pllIdOk_eq_true hid, immediate_runs hrun rfl]

/-- Another core's op is abandoned with `HALTED`; the faulting core's own is not (60_exceptions.md R156). -/
theorem mboxAt_abandonOther (c d : Core) (s : State) :
    mboxAt (abandonOther c s) d = if (s.seq.busy = true ∧ s.seq.owner ≠ c) ∧ d = s.seq.owner then
      { mboxAt s d with pending := false, running := false, done := true, code := codeByte .halted } else mboxAt s d := by
  unfold abandonOther
  by_cases hother : s.seq.busy = true ∧ s.seq.owner ≠ c
  · by_cases hd : d = s.seq.owner
    · simp [hother, hd]
    · simp [hother, hd, mboxAt_endOp_ne hd]
  · rw [if_neg hother, if_neg fun h => hother h.1]

/-- The fault of an immediate op of a core (R156, R157 (d)). -/
theorem raiseFatal_immediate_frame {s : State} (hrun : s.fault.halted = false) (c : Core) (k : StatusCode)
    (info : BitVec 16) :
    raiseFatal c false k info s = { s with
      mbox := (raiseFatal c false k info s).mbox, seq := (raiseFatal c false k info s).seq,
      fault := { halted := true, code := codeByte k, info := info } } :=
  state_eq_of_pllFields (by simp) (by simp) (by simp) (by simp) (by simp) (by simp) (by simp)
    ((raiseFatal_fault ..).trans (by rw [hrun]; rfl)) (by simp)

theorem mboxAt_raiseFatal_immediate (c d : Core) (k : StatusCode) (info : BitVec 16) (s : State) :
    mboxAt (raiseFatal c false k info s) d = if (s.seq.busy = true ∧ s.seq.owner ≠ c) ∧ d = s.seq.owner then
      { mboxAt (endOp c k s) d with pending := false, running := false, done := true, code := codeByte .halted }
      else mboxAt (endOp c k s) d := by
  have hmbox (e : Core) : mboxAt (endOp c k (recordFault k info s)) e = mboxAt (endOp c k s) e := by simp [mboxAt_endOp]
  have hseq : (endOp c k (recordFault k info s)).seq = s.seq := by simp
  rw [← hmbox, ← hseq]
  exact mboxAt_abandonOther c d _

/-- The faulting core's mailbox has ended with the fault's code. -/
theorem mboxAt_raiseFatal_issuer (c : Core) (k : StatusCode) (info : BitVec 16) (s : State) :
    mboxAt (raiseFatal c false k info s) c = mboxAt (endOp c k s) c := by
  rw [mboxAt_raiseFatal_immediate, if_neg]
  rintro ⟨⟨-, hother⟩, hc⟩
  exact hother hc.symm

/-- Where no other core's op runs, the fault of an immediate op leaves the sequencing alone (R157 (d)). -/
theorem raiseFatal_immediate_alone {c : Core} {s : State} (h : s.seq.busy = false ∨ s.seq.owner = c) (k : StatusCode)
    (info : BitVec 16) : raiseFatal c false k info s = endOp c k (recordFault k info s) := by
  have hnone : ¬(s.seq.busy = true ∧ s.seq.owner ≠ c) := by
    rintro ⟨hbusy, hother⟩
    obtain hidle | hown := h
    · rw [hidle] at hbusy; cases hbusy
    · exact hother hown
  simp [raiseFatal, abandonOther, hnone]

/-- Settles O30: the check fails, or the body finds a count of zero and faults, or it is one `setConsumers`. -/
theorem pllRemoveConsumerRuns : Obligations.PllRemoveConsumerRuns := by
  refine ⟨fun id a => decode_encode_anyArg (i := .pllRemoveConsumer id) (fun _ _ _ => rfl) a, fun _ => rfl,
    fun id s hcfg hrun => ?_⟩
  obtain ⟨t, ht⟩ := exec_total (.pllRemoveConsumer id) s
  refine ⟨t, ht, fun habsent => ?_, fun hpresent hzero => ?_, fun hpresent hcount => ?_⟩
  · obtain ⟨⟩ := ht.symm.trans (exec_pllRemoveConsumer_refused hrun habsent)
    exact endOp_refusedWith _ .badPllId s
  · rw [exec_pllRemoveConsumer hrun hpresent, if_pos hzero] at ht
    obtain ⟨⟩ := ht
    obtain ⟨⟨-, hissuer⟩, hres⟩ := endOp_opEndedPlain (fun _ => rfl) s.env.picked .consumerAccountingViolation (s := s)
    refine ⟨raiseFatal_immediate_frame hrun _ _ _, ?_, ?_, fun d hd hother => ?_, fun halone => ?_⟩
    · rw [mboxAt_raiseFatal_issuer]; exact hissuer
    · rw [mboxAt_raiseFatal_issuer]; exact hres
    · rw [mboxAt_raiseFatal_immediate, if_neg fun h => hother ⟨h.1.1, h.2.symm⟩]
      exact mboxAt_endOp_ne hd _ s
    · rw [raiseFatal_immediate_alone halone]
      exact ⟨by simp, endOp_opEndedPlain (fun _ => recordFault_mboxAt ..) _ _⟩
  · rw [exec_pllRemoveConsumer hrun hpresent, if_neg hcount] at ht
    obtain ⟨⟩ := ht
    obtain ⟨hself, hothers, hended⟩ := endOp_setConsumers (s := s) (hpresent.trans_le (nPll_le_of_cfgOk hcfg)) s.env.picked
      ((pllAt s id).consumerCount - 1)
    refine ⟨rfl, hself, ?_, hothers, hended⟩
    rw [hself]
    exact toNat_sub_one hcount

/-! ### The counts under every step -/

/-- Every PLL has the consumer count it had. -/
def SameCounts (s t : State) : Prop := ∀ id, (pllAt t id).consumerCount = (pllAt s id).consumerCount

theorem SameCounts.refl (s : State) : SameCounts s s := fun _ => rfl

theorem SameCounts.trans {s t u : State} (h : SameCounts s t) (h' : SameCounts t u) : SameCounts s u :=
  fun id => (h' id).trans (h id)

theorem SameCounts.of_plls {s t : State} (h : t.plls = s.plls) : SameCounts s t :=
  fun id => by unfold pllAt; rw [h]

theorem PllReplaced.sameCounts {id : PllId} {p : Pll} {s t : State} (h : PllReplaced id p s t)
    (hp : p.consumerCount = (pllAt s id).consumerCount) : SameCounts s t := by
  intro j
  rw [h j]
  split
  next hj => rw [hj.1, hp]
  next => rfl

theorem pllDisableBody_sameCounts (id : PllId) (s : State) : SameCounts s (pllDisableBody id s) :=
  PllReplaced.sameCounts (fun j => pllAt_pllDisableBody id j s) rfl

theorem microBody_sameCounts (a : Bool) (m : Micro) (s : State) : SameCounts s (microBody a m s) := by
  cases m with
  | dropPll id =>
    dsimp only [microBody, doDropPll]
    split
    · exact pllDisableBody_sameCounts id s
    · exact .refl s
  | pllEnable id => exact PllReplaced.sameCounts (fun j => pllAt_pllEnableBody id j s) rfl
  | calDivide id x g => exact (doCalDivide_replaced id x g s).sameCounts rfl
  | calStart id => exact (doCalStart_replaced id s).sameCounts rfl
  | calPoll id o => exact (calPolled_replaced id a s).sameCounts rfl
  | calStop id g => exact (doCalStop_replaced id g s).sameCounts rfl
  | _ => exact .of_plls rfl

theorem doCalPoll_sameCounts (id : PllId) (o : Option Word) (rest : List Micro) (a : Bool) (s : State) :
    SameCounts s (doCalPoll id o rest a s) := by
  refine (microBody_sameCounts a (.calPoll id o) s).trans ?_
  dsimp only [doCalPoll]
  split_ifs
  · exact .of_plls (advance_plls ..)
  · exact PllReplaced.sameCounts (fun j => pllAt_calTimeout id j o _) rfl
  · exact .of_plls (advance_plls ..)

/-- No micro-step changes a count, that of a CPU-clock op or any other (R111). -/
theorem runMicro_sameCounts (m : Micro) (rest : List Micro) (a : Bool) (s : State) :
    SameCounts s (runMicro m rest a s) := by
  cases m with
  | setConfig | restoreSaved | bringUp | apply | program => exact .refl s
  | pllDisable id =>
    dsimp only [runMicro, doPllDisable]
    split
    · exact (pllDisableBody_sameCounts id s).trans (.of_plls (advance_plls ..))
    · exact .of_plls (raiseFatal_plls ..)
  | calPoll id o => exact doCalPoll_sameCounts id o rest a s
  | dropPll | pllEnable | calDivide | calStart | calStop =>
    rw [runMicro_plain (a := a) rfl]
    exact (microBody_sameCounts a _ s).trans (.of_plls (advance_plls ..))
  | pollStatus =>
    dsimp only [runMicro, doPollStatus]
    split
    · exact .of_plls (advance_plls ..)
    · exact .of_plls (advance_plls ..)
  | _ => exact .of_plls (advance_plls ..)

theorem sequencerStep_sameCounts (a : Bool) (s : State) : SameCounts s (sequencerStep a s) := by
  obtain hsame | ⟨m, rest, -, -, -, hstep⟩ := sequencerStep_cases a s
  · rw [hsame]; exact .refl s
  · rw [hstep]; exact runMicro_sameCounts m rest a s

/-- A count that a `setConsumers` has changed is the one it was for. -/
theorem setConsumers_changed {id j : PllId} {n : Word} {s : State}
    (h : (pllAt (setConsumers id n s) j).consumerCount ≠ (pllAt s j).consumerCount) :
    j = id ∧ (pllAt (setConsumers id n s) j).consumerCount = n := by
  rw [setConsumers_replaced id n s j] at h ⊢
  split at h
  next hj => exact ⟨hj.1, by rw [if_pos hj]⟩
  next => exact absurd rfl h

/-- How an op's acceptance changes the count of `id`: by one up, or by one down (R108). -/
def CountChangedBy (i : Instr) (id : PllId) (s t : State) : Prop :=
  i = .pllAddConsumer id ∧ (pllAt t id).consumerCount.toNat = (pllAt s id).consumerCount.toNat + 1 ∨
    i = .pllRemoveConsumer id ∧ (pllAt t id).consumerCount.toNat + 1 = (pllAt s id).consumerCount.toNat

theorem StartOf.prep_plls {s : State} {i : Instr} {prep : State → State} {script : List Micro}
    (h : StartOf s i prep script) : (prep s).plls = s.plls := by
  cases h with
  | clock => exact discardParams_plls s
  | sleep => exact discardParams_plls s
  | _ => rfl

/-- Of all ops only an add and a remove change a count (R108). -/
theorem exec_counts {i : Instr} {s t : State} (h : exec i s = .next t) {id : PllId}
    (hchanged : (pllAt t id).consumerCount ≠ (pllAt s id).consumerCount) : CountChangedBy i id s t := by
  obtain ⟨k, rfl⟩ | rfl | ⟨-, -, prep, script, hstart, rfl⟩ | ⟨-, -, himm⟩ := exec_cases i s t h
  · exact absurd rfl hchanged
  · exact absurd rfl hchanged
  · exact absurd (SameCounts.of_plls ((start_plls ..).trans hstart.prep_plls) id) hchanged
  · obtain ⟨f, k, -, rfl⟩ | ⟨-, rfl⟩ | ⟨j, rfl, hcount, rfl⟩ | ⟨j, rfl, hcount, rfl⟩ | ⟨j, -, -, rfl⟩ | ⟨k, p, -, rfl⟩ := himm
    · exact absurd rfl hchanged
    · exact absurd rfl hchanged
    · obtain ⟨rfl, hnew⟩ := setConsumers_changed hchanged
      exact .inl ⟨rfl, (congrArg BitVec.toNat hnew).trans (toNat_add_one hcount)⟩
    · obtain ⟨rfl, hnew⟩ := setConsumers_changed hchanged
      exact .inr ⟨rfl, (congrArg (BitVec.toNat · + 1) hnew).trans (toNat_sub_one hcount)⟩
    · exact absurd (SameCounts.of_plls (raiseFatal_plls ..) id) hchanged
    · exact absurd rfl hchanged

theorem acceptCommand_counts {c : Core} {s t : State} (h : acceptCommand c s = .next t) {id : PllId}
    (hchanged : (pllAt t id).consumerCount ≠ (pllAt s id).consumerCount) :
    ∃ i, decode (mboxAt s c).cmd (mboxAt s c).arg = .ok i ∧ CountChangedBy i id s t := by
  unfold acceptCommand at h
  split at h
  · split at h
    next i hi => exact ⟨i, hi, exec_counts h hchanged⟩
    · cases h; exact absurd rfl hchanged
  · cases h; exact absurd rfl hchanged

/-- Of all actions only RESET and an acceptance change a count. -/
theorem act_counts {a : Action} {s t : State} (h : act a s = .next t) :
    SameCounts s t ∨ a = .reset ∨ ∃ c, a = .accept c ∧ acceptCommand c s = .next t := by
  cases a with
  | accept c => exact .inr (.inr ⟨c, rfl, h⟩)
  | reset => exact .inr (.inl rfl)
  | sequencer answer => cases h; exact .inl (sequencerStep_sameCounts answer s)
  | hostWrite addr bytes v =>
    dsimp only [act, hostWrite] at h
    split at h <;> cases h
    split
    · exact .inl fun id => by rw [(writeReg_same ..).plls id]
    · exact .inl (.refl s)
  | hostRead addr bytes =>
    dsimp only [act, hostRead] at h
    split at h <;> cases h
    exact .inl (.refl s)
  | wakeTrigger => cases h; exact .inl (.of_plls (wakeTrigger_plls s))
  | lpTick => cases h; exact .inl (.of_plls (lpTick_plls s))
  | lpDone => cases h; exact .inl (.of_plls (lpDone_plls s))
  | hpTick => cases h; exact .inl (.of_plls (hpTick_plls s))
  | hpDone => cases h; exact .inl (.of_plls (hpDone_plls s))
  | setWakeLines | setRejectLines | addCycles => cases h; exact .inl (.refl s)

/-- Settles O32: `act_counts` for the action that comes next, and `acceptCommand_counts` where it is an acceptance. -/
theorem onlyConsumerOpsChangeTheCount : Obligations.OnlyConsumerOpsChangeTheCount := by
  intro s t id h hchanged
  obtain ⟨e, he⟩ := choiceTaken_eq s
  have hact : act (nextAction s) (setEnv e s) = .next t := he ▸ h
  obtain hsame | hreset | ⟨c, haccept, hcommand⟩ := act_counts hact
  · exact absurd (hsame id) hchanged
  · exact .inl hreset
  · obtain ⟨i, hi, ⟨rfl, hup⟩ | ⟨rfl, hdown⟩⟩ := acceptCommand_counts hcommand hchanged
    · exact .inr ⟨c, haccept, .inl ⟨hi, hup⟩⟩
    · exact .inr ⟨c, haccept, .inr ⟨hi, hdown⟩⟩

end Sys2Proof.Machine
end


section
/-! The sleep handshake under every step (42_sleep.md R130, R131, R139, R140): where the sleep start stands in a script, which
actions touch the two status bits, `asleep` and the timer, and the invariant on them. -/

namespace Sys2Proof.Machine

/-! ### Where the sleep start stands -/

/-- A script whose first item is no sleep start. -/
def NoStartFirst (l : List Micro) : Prop := l.head? ≠ some .sleepStart

theorem handshakeScript_cons {m : Micro} {rest : List Micro} :
    HandshakeScript (m :: rest) ↔
      (∀ x ∈ rest.head?, handshakeOrder m x) ∧ (m = .sleepStart → rest ≠ []) ∧ HandshakeScript rest := by
  unfold HandshakeScript
  rw [List.isChain_cons]
  cases rest with
  | nil => simp
  | cons x rest => simp; tauto

/-- Only the interrupt clear has the sleep start after it. -/
theorem HandshakeScript.noStartFirst {m : Micro} {rest : List Micro} (h : HandshakeScript (m :: rest)) (hm : m ≠ .intClr) :
    NoStartFirst rest := by
  obtain ⟨horder, -, -⟩ := handshakeScript_cons.1 h
  intro hstart
  obtain ⟨hbefore, -⟩ := horder .sleepStart hstart
  exact hm (hbefore rfl)

/-- The sleep start has the status poll after it. -/
theorem HandshakeScript.poll_next {rest : List Micro} (h : HandshakeScript (.sleepStart :: rest)) :
    ∃ tail, rest = .pollStatus :: tail := by
  obtain ⟨horder, hne, -⟩ := handshakeScript_cons.1 h
  cases rest with
  | nil => exact absurd rfl (hne rfl)
  | cons x tail =>
    obtain ⟨-, hafter⟩ := horder x rfl
    exact ⟨tail, by rw [hafter rfl]⟩

/-- Items without a sleep start, before a script in order that begins with none. -/
theorem HandshakeScript.append {l rest : List Micro} (hl : .sleepStart ∉ l) (h : HandshakeScript rest)
    (hfirst : NoStartFirst rest) : HandshakeScript (l ++ rest) ∧ NoStartFirst (l ++ rest) := by
  induction l with
  | nil => exact ⟨h, hfirst⟩
  | cons m l ih =>
    obtain ⟨hm, hl⟩ : ¬Micro.sleepStart = m ∧ .sleepStart ∉ l := by simpa using hl
    obtain ⟨horder, hnext⟩ := ih hl
    refine ⟨handshakeScript_cons.2 ⟨fun x hx => ⟨?_, ?_⟩, fun he => absurd he.symm hm, horder⟩, ?_⟩
    · rintro rfl; exact absurd hx hnext
    · rintro rfl; exact absurd rfl hm
    · intro he; exact hm (Option.some.inj he).symm

/-- No control line stands for a list with a sleep start in it. -/
theorem sleepStart_not_mem_expand {s : State} {m : Micro} {l : List Micro} (h : expand s m = some l) : .sleepStart ∉ l := by
  have hset (t : ClockConfig) : Micro.sleepStart ∉ setConfigScript s t := by
    dsimp only [setConfigScript]
    cases leftPll s.clk.cur t <;> cases t.source <;> split <;> simp
  cases m with
  | setConfig t => cases h; exact hset t
  | restoreSaved => cases h; exact hset s.slp.savedCfg
  | bringUp t o =>
    cases h
    obtain hnil | ⟨x, ms, hcons, -⟩ := bringUpScript_cons s t o
    · simp [hnil]
    · have hplain := bringUpScript_plain s t o
      exact fun hmem => absurd (hplain _ hmem) (by simp [isPlain])
  | apply t => cases h; simp [applyScript]
  | program => cases h; simp [programScript]
  | _ => cases h

/-- The resolved script is in order, and begins with a sleep start only where the script did. -/
theorem handshakeScript_resolveHead {s : State} {l : List Micro} (h : HandshakeScript l) (n : Nat) :
    HandshakeScript (resolveHead n s l) ∧ (NoStartFirst l → NoStartFirst (resolveHead n s l)) := by
  by_cases hfirst : NoStartFirst l
  · have hkept := resolveHead_keeps (s := s) (P := fun l => HandshakeScript l ∧ NoStartFirst l)
      (fun m x rest he hm => ?_) n ⟨h, hfirst⟩
    · exact ⟨hkept.1, fun _ => hkept.2⟩
    · obtain ⟨-, -, hrest⟩ := handshakeScript_cons.1 hm.1
      exact hrest.append (sleepStart_not_mem_expand he) (hm.1.noStartFirst (by rintro rfl; cases he))
  · obtain ⟨rest, rfl⟩ : ∃ rest, l = .sleepStart :: rest := by
      simpa [NoStartFirst, List.head?_eq_some_iff] using hfirst
    have hself : resolveHead n s (.sleepStart :: rest) = .sleepStart :: rest := by cases n <;> rfl
    rw [hself]
    exact ⟨h, id⟩

/-- The script that the end of a micro-step leaves. -/
theorem handshakeScript_advance {l : List Micro} (h : HandshakeScript l) (s : State) :
    HandshakeScript (advance l s).seq.script ∧ (NoStartFirst l → NoStartFirst (advance l s).seq.script) := by
  induction l, s using advance.induct with
  | case1 rest s ih =>
    obtain ⟨-, -, hrest⟩ := handshakeScript_cons.1 h
    obtain ⟨horder, hfirst⟩ := ih hrest
    exact ⟨horder, fun _ => hfirst (h.noStartFirst (by simp))⟩
  | case2 e rest s => simp [HandshakeScript, NoStartFirst]
  | case3 l s h1 h2 => simpa [advance] using h

/-! ### The status bits, `asleep` and the timer -/

/-- The status bits, `asleep` and the timer phase are as they were. -/
def SameBits (s t : State) : Prop :=
  t.slp.wakeupOccurred = s.slp.wakeupOccurred ∧ t.slp.sleepRejected = s.slp.sleepRejected ∧
    t.slp.asleep = s.slp.asleep ∧ t.slp.wtPhase = s.slp.wtPhase

theorem SameBits.of_slp {s t : State} (h : t.slp = s.slp) : SameBits s t := by simp [SameBits, h]

theorem SameBits.trans {s t u : State} (h : SameBits s t) (h' : SameBits t u) : SameBits s u := by
  obtain ⟨hw, hr, ha, hp⟩ := h
  obtain ⟨hw', hr', ha', hp'⟩ := h'
  exact ⟨hw'.trans hw, hr'.trans hr, ha'.trans ha, hp'.trans hp⟩

theorem advance_sameBits (l : List Micro) (s : State) : SameBits s (advance l s) := by
  induction l, s using advance.induct with
  | case1 rest s ih => exact ih
  | case2 e rest s => exact .of_slp (finishOp_slp e s)
  | case3 l s h1 h2 => exact .of_slp (by simp [advance])

theorem calTimeout_slp (id : PllId) (o : Option Word) (s : State) : (calTimeout id o s).slp = s.slp := by
  cases o <;> simp [calTimeout]

theorem doCalPoll_sameBits (id : PllId) (o : Option Word) (rest : List Micro) (a : Bool) (s : State) :
    SameBits s (doCalPoll id o rest a s) := by
  dsimp only [doCalPoll]
  split_ifs
  · exact .trans (.of_slp (calPolled_slp id a s)) (advance_sameBits _ _)
  · exact .of_slp ((calTimeout_slp id o _).trans (calPolled_slp id a s))
  · exact .trans (.of_slp (calPolled_slp id a s)) (advance_sameBits _ _)

/-- Every micro-step but the interrupt clear and the sleep start leaves them alone (R130). -/
theorem runMicro_sameBits {m : Micro} (hclr : m ≠ .intClr) (hstart : m ≠ .sleepStart) (rest : List Micro) (a : Bool)
    (s : State) : SameBits s (runMicro m rest a s) := by
  have body {u : State} {l : List Micro} (hu : SameBits s u) : SameBits s (advance l u) := hu.trans (advance_sameBits l u)
  cases m with
  | intClr => exact absurd rfl hclr
  | sleepStart => exact absurd rfl hstart
  | setConfig | restoreSaved | bringUp | apply | program => exact .of_slp rfl
  | dropPll | calDivide | pllEnable | calStart | calStop | applyWrite | applyEnd | stepFive =>
    exact body (.of_slp (by simp))
  | pllDisable id =>
    dsimp only [runMicro, doPllDisable]
    split
    · exact body (.of_slp (by simp))
    · exact .of_slp (by simp)
  | calPoll id o => exact doCalPoll_sameBits id o rest a s
  | pollStatus =>
    dsimp only [runMicro, doPollStatus]
    split <;> exact body ⟨rfl, rfl, rfl, rfl⟩
  | progWrite f => exact body (by cases f <;> exact ⟨rfl, rfl, rfl, rfl⟩)
  | _ => exact body ⟨rfl, rfl, rfl, rfl⟩

/-! ### What keeps the invariant -/

theorem SleepBitsInv.of_same {s t : State} (h : SleepBitsInv s) (hbits : SameBits s t) (hseq : t.seq = s.seq)
    (hhalt : s.fault.halted = true → t.fault.halted = true) : SleepBitsInv t := by
  obtain ⟨hwoke, hrejected, hasleep, hphase⟩ := hbits
  refine ⟨?_, ?_, ?_, ?_, ?_, ?_⟩
  · rw [hseq]; exact h.script
  · rw [hwoke, hrejected]; exact h.notBoth
  · rw [hseq, hwoke, hrejected]; exact h.starting
  · rw [hasleep, hwoke, hrejected]; exact h.asleepBits
  · rw [hasleep, hseq]; exact fun ha => (h.asleepPolls ha).imp_left fun ⟨hh, hnil⟩ => ⟨hhalt hh, hnil⟩
  · rw [hphase, hasleep]; exact h.timer

/-- Awake, the invariant is about the script and the bits only. -/
theorem sleepBitsInv_of_awake {s : State} (hasleep : s.slp.asleep = false) (hphase : s.slp.wtPhase = .off)
    (hscript : HandshakeScript s.seq.script) (hboth : ¬(s.slp.wakeupOccurred = true ∧ s.slp.sleepRejected = true))
    (hstart : s.seq.script.head? = some .sleepStart → s.slp.wakeupOccurred = false ∧ s.slp.sleepRejected = false) :
    SleepBitsInv s :=
  ⟨hscript, hboth, hstart, fun h => absurd (hasleep.symm.trans h) Bool.noConfusion,
    fun h => absurd (hasleep.symm.trans h) Bool.noConfusion, fun h => absurd hphase h⟩

theorem SleepBitsInv.phase_of_awake {s : State} (h : SleepBitsInv s) (hasleep : s.slp.asleep = false) :
    s.slp.wtPhase = .off := by
  by_contra hphase
  exact Bool.noConfusion (hasleep.symm.trans (h.timer hphase))

/-- HALT has dropped the script; nothing else of it matters to the invariant. -/
theorem SleepBitsInv.of_halted {s t : State} (h : SleepBitsInv s) (hbits : SameBits s t) (hhalt : t.fault.halted = true)
    (hscript : t.seq.script = []) : SleepBitsInv t := by
  obtain ⟨hwoke, hrejected, hasleep, hphase⟩ := hbits
  refine ⟨?_, ?_, ?_, ?_, fun _ => .inl ⟨hhalt, hscript⟩, ?_⟩
  · rw [hscript]; simp [HandshakeScript]
  · rw [hwoke, hrejected]; exact h.notBoth
  · rw [hscript]; simp
  · rw [hasleep, hwoke, hrejected]; exact h.asleepBits
  · rw [hphase, hasleep]; exact h.timer

/-! ### The micro-steps -/

/-- A status poll that finds both bits clear is its event and nothing else (R130, R141). -/
theorem sequencerStep_pollsOn {s : State} (hbusy : s.seq.busy = true) (hrun : s.fault.halted = false)
    (hpoll : s.seq.script.head? = some .pollStatus)
    (hbits : s.slp.wakeupOccurred = false ∧ s.slp.sleepRejected = false) (a : Bool) :
    sequencerStep a s = emit (.r .intStatus 0) s := by
  obtain ⟨rest, hscript⟩ := List.head?_eq_some_iff.1 hpoll
  obtain ⟨hwoke, hrejected⟩ := hbits
  have hword : intStatusWord s.slp = 0 := by rw [intStatusWord, hwoke, hrejected]; rfl
  have hsame : { s.seq with script := .pollStatus :: rest } = s.seq := by rw [← hscript]
  unfold sequencerStep
  rw [if_pos ⟨hbusy, hrun⟩, hscript]
  simp only [resolveHead, expand, runMicro, doPollStatus, hwoke, hrejected, hword, Bool.or_self, Bool.false_eq_true,
    if_false]
  rw [advance_cons (by simp) (by simp), emit_seq, hsame]
  rfl

/-- The sleep start with an enabled reject line up (R139). -/
theorem doSleepStart_rejected {s : State} (h : s.env.rejectLines &&& s.slp.rejectEn ≠ 0) :
    doSleepStart s = setSlp { s.slp with sleepRejected := true } (emit (.w .sleepStart 1) s) := by
  rw [doSleepStart, sleepStartReaction, if_pos h]

/-- The sleep start with no enabled reject line up (R139). -/
theorem doSleepStart_asleep {s : State} (h : s.env.rejectLines &&& s.slp.rejectEn = 0) :
    doSleepStart s =
      setSlp { s.slp with asleep := true, state := .asleep, wtPhase := .off } (emit (.w .sleepStart 1) s) := by
  rw [doSleepStart, sleepStartReaction, if_neg (not_not_intro h)]

/-- The sleep start: rejected, or asleep at the status poll (R139). -/
theorem SleepBitsInv.sleepStart {s : State} (h : SleepBitsInv s) (hawake : s.slp.asleep = false)
    (hbusy : s.seq.busy = true) (hfirst : s.seq.script.head? = some .sleepStart) {rest : List Micro}
    (hrest : HandshakeScript (.sleepStart :: rest)) : SleepBitsInv (advance rest (doSleepStart s)) := by
  obtain ⟨hwoke, hrejected⟩ := h.starting hfirst
  have hphase := h.phase_of_awake hawake
  obtain ⟨-, -, horder⟩ := handshakeScript_cons.1 hrest
  obtain ⟨tail, rfl⟩ := hrest.poll_next
  rw [advance_cons (by simp) (by simp)]
  by_cases hline : s.env.rejectLines &&& s.slp.rejectEn = 0
  · rw [doSleepStart_asleep hline]
    exact ⟨horder, fun hboth => Bool.noConfusion (hwoke.symm.trans hboth.1), fun _ => ⟨hwoke, hrejected⟩,
      fun _ => ⟨hwoke, hrejected⟩, fun _ => .inr ⟨hbusy, rfl⟩, fun _ => rfl⟩
  · rw [doSleepStart_rejected hline]
    exact sleepBitsInv_of_awake hawake hphase horder (fun hboth => Bool.noConfusion (hwoke.symm.trans hboth.1))
      fun hpoll => by cases hpoll

/-- Every micro-step of a block that is awake. -/
theorem SleepBitsInv.runMicro_awake {s : State} (h : SleepBitsInv s) (hawake : s.slp.asleep = false)
    (hbusy : s.seq.busy = true) {m : Micro} {rest : List Micro} (hl : HandshakeScript (m :: rest))
    (hfirst : m = .sleepStart → s.seq.script.head? = some .sleepStart) (a : Bool) : SleepBitsInv (runMicro m rest a s) := by
  have hphase := h.phase_of_awake hawake
  obtain ⟨-, -, hrest⟩ := handshakeScript_cons.1 hl
  by_cases hclr : m = .intClr
  · subst hclr
    obtain ⟨hwoke, hrejected, hasleep, hph⟩ := advance_sameBits rest (doIntClr s)
    exact sleepBitsInv_of_awake (hasleep.trans hawake) (hph.trans hphase) (handshakeScript_advance hrest _).1
      (fun hboth => Bool.noConfusion (hwoke.symm.trans hboth.1)) fun _ => ⟨hwoke, hrejected⟩
  by_cases hstart : m = .sleepStart
  · subst hstart
    exact h.sleepStart hawake hbusy (hfirst rfl) hl
  have hbits := runMicro_sameBits hclr hstart rest a s
  cases hm : expand s m with
  | some l => rwa [runMicro_of_expand hm]
  | none =>
    obtain ⟨l, u, hgo, hcont⟩ | ⟨hhalt, hnil⟩ := runMicro_goesOn hm rest a
    · have hscript : HandshakeScript l ∧ NoStartFirst l := by
        obtain rfl | ⟨-, rfl⟩ := hcont
        · exact ⟨hrest, hl.noStartFirst hclr⟩
        · exact ⟨hl, fun he => hstart (Option.some.inj he)⟩
      obtain ⟨horder, hnone⟩ := handshakeScript_advance hscript.1 u
      obtain ⟨hwoke, hrejected, hasleep, hph⟩ := hbits
      refine sleepBitsInv_of_awake (hasleep.trans hawake) (hph.trans hphase) ?_ ?_ fun he => ?_
      · rw [hgo]; exact horder
      · rw [hwoke, hrejected]; exact h.notBoth
      · rw [hgo] at he; exact absurd he (hnone hscript.2)
    · exact h.of_halted hbits hhalt hnil

theorem SleepBitsInv.sequencerStep {s : State} (h : SleepBitsInv s) (a : Bool) : SleepBitsInv (sequencerStep a s) := by
  obtain hsame | ⟨m, rest, hbusy, hrun, hhead, hstep⟩ := sequencerStep_cases a s
  · rwa [hsame]
  cases hasleep : s.slp.asleep with
  | true =>
    obtain ⟨hhalt, -⟩ | ⟨-, hpoll⟩ := h.asleepPolls hasleep
    · exact absurd (hrun.symm.trans hhalt) Bool.noConfusion
    · rw [sequencerStep_pollsOn hbusy hrun hpoll (h.asleepBits hasleep)]
      exact h.of_same (.of_slp rfl) rfl id
  | false =>
    obtain ⟨horder, hnone⟩ := handshakeScript_resolveHead (s := s) h.script 4
    rw [hhead] at horder hnone
    rw [hstep]
    refine h.runMicro_awake hasleep hbusy horder (fun hm => ?_) a
    by_contra hfirst
    exact hnone hfirst (congrArg some hm)

/-! ### Acceptances and the hardware steps -/

theorem StartOf.handshakeScript {s : State} {i : Instr} {prep : State → State} {script : List Micro}
    (h : StartOf s i prep script) : HandshakeScript script ∧ NoStartFirst script := by
  cases h <;> simp [HandshakeScript, NoStartFirst, handshakeOrder, enterScript]

theorem StartOf.prep_sameBits {s : State} {i : Instr} {prep : State → State} {script : List Micro}
    (h : StartOf s i prep script) : SameBits s (prep s) := by
  have hdiscard : SameBits s (discardParams s) := by
    obtain ⟨-, hd⟩ | hd := discardParams_eq s <;> rw [hd] <;> exact ⟨rfl, rfl, rfl, rfl⟩
  cases h with
  | clock => exact hdiscard
  | sleep => exact hdiscard.trans ⟨rfl, rfl, rfl, rfl⟩
  | _ => exact ⟨rfl, rfl, rfl, rfl⟩

/-- An op starts only in a block that is awake. -/
theorem SleepBitsInv.awake_of_ready {s : State} (h : SleepBitsInv s) (hready : Ready s) : s.slp.asleep = false := by
  obtain ⟨hrun, hidle⟩ := hready
  by_contra ha
  obtain ⟨hhalt, -⟩ | ⟨hbusy, -⟩ := h.asleepPolls (by simpa using ha)
  · exact Bool.noConfusion (hrun.symm.trans hhalt)
  · exact Bool.noConfusion (hidle.symm.trans hbusy)

theorem SleepBitsInv.start {s : State} (h : SleepBitsInv s) (hready : Ready s) {i : Instr} {prep : State → State}
    {script : List Micro} (hstart : StartOf s i prep script) : SleepBitsInv (Machine.start script (prep s)) := by
  obtain ⟨hscript, hfirst⟩ := hstart.handshakeScript
  have hawake := h.awake_of_ready hready
  have hopened : SameBits (prep s) (Machine.start script (prep s)) := .trans (.of_slp rfl) (advance_sameBits script (opened (prep s)))
  obtain ⟨hwoke, hrejected, hasleep, hphase⟩ := hstart.prep_sameBits.trans hopened
  obtain ⟨horder, hnone⟩ := handshakeScript_advance hscript (opened (prep s))
  refine sleepBitsInv_of_awake (hasleep.trans hawake) (hphase.trans (h.phase_of_awake hawake)) horder ?_
    fun he => absurd he (hnone hfirst)
  rw [hwoke, hrejected]; exact h.notBoth

/-- The fatal fault of an immediate op leaves the running op or abandons it (60_exceptions.md R156). -/
theorem SleepBitsInv.raiseFatal {s : State} (h : SleepBitsInv s) (c : Core) (k : StatusCode) (info : BitVec 16) :
    SleepBitsInv (raiseFatal c false k info s) := by
  have hbits : SameBits s (Machine.raiseFatal c false k info s) := .of_slp (raiseFatal_slp ..)
  have hhalt : (Machine.raiseFatal c false k info s).fault.halted = true := by
    rw [raiseFatal_fault]; split <;> simp_all
  by_cases hother : s.seq.busy = true ∧ s.seq.owner ≠ c
  · exact h.of_halted hbits hhalt (by simp [Machine.raiseFatal, abandonOther, hother])
  · exact h.of_same hbits (by simp [Machine.raiseFatal, abandonOther, hother]) fun _ => hhalt

theorem SleepBitsInv.exec {s t : State} {i : Instr} (h : SleepBitsInv s) (hexec : exec i s = .next t) : SleepBitsInv t := by
  obtain ⟨k, rfl⟩ | rfl | ⟨-, hready, prep, script, hstart, rfl⟩ | ⟨-, -, himm⟩ := exec_cases i s t hexec
  · exact h.of_same (.of_slp rfl) rfl id
  · exact h
  · exact h.start hready hstart
  · obtain ⟨f, k, -, rfl⟩ | ⟨-, rfl⟩ | ⟨id, -, -, rfl⟩ | ⟨id, -, -, rfl⟩ | ⟨id, -, -, rfl⟩ | ⟨k, p, -, rfl⟩ := himm
    · exact h.of_same (.of_slp rfl) rfl id
    · exact h.of_same (.of_slp rfl) rfl id
    · exact h.of_same (.of_slp rfl) rfl fun hh => hh
    · exact h.of_same (.of_slp rfl) rfl fun hh => hh
    · exact h.raiseFatal _ _ _
    · exact h.of_same (.of_slp rfl) rfl id

theorem SleepBitsInv.writeReg {s : State} (h : SleepBitsInv s) (off : Nat) (v : Word) : SleepBitsInv (writeReg off v s) := by
  obtain ⟨mb, z, hw, p, b, l, rfl⟩ := writeReg_frame off v s
  rw [hw]
  exact h.of_same ⟨rfl, rfl, rfl, rfl⟩ rfl id

/-- A step of the wake sequence that leaves the block asleep touches the timer only. -/
theorem SleepBitsInv.timerStep {s : State} (h : SleepBitsInv s) (hasleep : s.slp.asleep = true) (phase : WtPhase)
    (count : Word) : SleepBitsInv (setSlp { s.slp with wtPhase := phase, wtCount := count } s) :=
  ⟨h.script, h.notBoth, h.starting, h.asleepBits, h.asleepPolls, fun _ => hasleep⟩

/-- The end of the wake sequence: the wake bit comes where neither was set (R140). -/
theorem SleepBitsInv.hpDone {s : State} (h : SleepBitsInv s) : SleepBitsInv (hpDone s) := by
  unfold Machine.hpDone
  split
  next hdone =>
    obtain ⟨-, hrejected⟩ := h.asleepBits hdone.1
    refine sleepBitsInv_of_awake rfl rfl h.script (fun hboth => ?_) fun hstart => ?_
    · exact Bool.noConfusion (hrejected.symm.trans hboth.2)
    · obtain ⟨-, hnil⟩ | ⟨-, hpoll⟩ := h.asleepPolls hdone.1
      · rw [setSlp_seq, hnil] at hstart; cases hstart
      · rw [setSlp_seq, hpoll] at hstart; cases hstart
  next => exact h

theorem sleepBitsInv_resetOf (cfg : Cfg) : SleepBitsInv (State.resetOf cfg) :=
  sleepBitsInv_of_awake rfl rfl (by simp [HandshakeScript, State.resetOf]) (by simp [State.resetOf, SleepSeq.reset])
    (by simp [State.resetOf])

/-- Settles O57: the micro-steps and the wake sequence are the only actions that reach the bits, `asleep` or the timer. -/
theorem stepKeepsSleepBitsInv : Obligations.StepKeepsSleepBitsInv := by
  intro s t hs h
  exact step_keeps SleepBitsInv
    (henv := fun s e h => h.of_same (.of_slp rfl) rfl id)
    (hreset := fun s _ => (sleepBitsInv_resetOf s.cfg).of_same (.of_slp rfl) rfl id)
    (hcyc := fun s n h => h.of_same (.of_slp rfl) rfl id)
    (hwrite := fun s off v h => h.writeReg off v)
    (hend := fun s c k h _ => h.of_same (.of_slp rfl) rfl id)
    (hexec := fun s i t h _ hexec => h.exec hexec)
    (hseq := fun s a h => h.sequencerStep a)
    (hwt := fun s h => by unfold wakeTrigger; split; exacts [h.timerStep (by tauto) _ _, h])
    (hlt := fun s h => by unfold lpTick; split; exacts [h.timerStep (by tauto) _ _, h])
    (hld := fun s h => by unfold lpDone; split; exacts [h.timerStep (by tauto) _ _, h])
    (hht := fun s h => by unfold hpTick; split; exacts [h.timerStep (by tauto) _ _, h])
    (hhd := fun s h => h.hpDone)
    s t hs h

end Sys2Proof.Machine
end

section
/-! Runs of the sleep ops (42_sleep.md R122, R128 to R135): their micro-steps as bodies, the polls of the handshake, and the two
control lines of ENTER_SLEEP. -/

namespace Sys2Proof.Machine

/-! ### One micro-step -/

/-- A sequencer action whose micro-step stands at the head of the script. -/
theorem sequencerStep_advance {s : State} (hs : Running s) {m : Micro} (hm : expand s m = none)
    (hne : m ≠ .setProgrammed ∧ ∀ e, m ≠ .finish e) (rest : List Micro) (a : Bool) :
    sequencerStep a (advance (m :: rest) s) = runMicro m rest a (atScript (m :: rest) s) := by
  have hrun : (atScript (m :: rest) s).seq.busy = true ∧ (atScript (m :: rest) s).fault.halted = false := hs
  rw [advance_eq_atScript hne]
  unfold sequencerStep
  rw [if_pos hrun, resolveHead_atScript, show (atScript (m :: rest) s).seq.script = m :: rest from rfl, resolveHead, hm]

/-- The micro-steps of the sleep ops whose work is a body followed by the rest of the script. -/
def isSleepStep : Micro → Bool
  | .buildParams _ _ _ | .progWrite _ | .regdmaWrite _ | .wakeType _ | .wakeEn _ | .rejectEn _ | .intClr | .sleepStart
  | .enterEnd => true
  | _ => false

/-- That body; `runMicro_sleepStep` ties it to `runMicro`. -/
def sleepBody : Micro → State → State
  | .buildParams mf pd adj => doBuildParams mf pd adj
  | .progWrite f => doProgWrite f
  | .regdmaWrite on => doRegdmaWrite on
  | .wakeType deep => doWakeType deep
  | .wakeEn mask => doWakeEn mask
  | .rejectEn mask => doRejectEn mask
  | .intClr => doIntClr
  | .sleepStart => doSleepStart
  | .enterEnd => doEnterEnd
  | _ => id

theorem runMicro_sleepStep {m : Micro} (hm : isSleepStep m = true) (rest : List Micro) (a : Bool) (s : State) :
    runMicro m rest a s = advance rest (sleepBody m s) := by
  cases m with
  | buildParams | progWrite | regdmaWrite | wakeType | wakeEn | rejectEn | intClr | sleepStart | enterEnd => rfl
  | _ => cases hm

theorem expand_of_sleepStep {m : Micro} (hm : isSleepStep m = true) (s : State) : expand s m = none := by
  cases m with
  | setConfig | restoreSaved | bringUp | apply | program => cases hm
  | _ => rfl

theorem ne_unmarked_of_sleepStep {m : Micro} (hm : isSleepStep m = true) : m ≠ .setProgrammed ∧ ∀ e, m ≠ .finish e := by
  refine ⟨?_, fun e => ?_⟩ <;> rintro rfl <;> cases hm

/-- No body looks at the script or changes it. -/
theorem sleepBody_atScript (m : Micro) (l : List Micro) (s : State) :
    sleepBody m (atScript l s) = atScript l (sleepBody m s) := by
  cases m <;> rfl

theorem Running.sleepBody {s : State} (h : Running s) (m : Micro) : Running (sleepBody m s) := by
  cases m <;> exact h

/-- A sequencer action of a running sleep op. -/
theorem sequencerStep_sleepStep {s : State} (hs : Running s) {m : Micro} (hm : isSleepStep m = true) (rest : List Micro)
    (a : Bool) : sequencerStep a (advance (m :: rest) s) = advance rest (sleepBody m s) := by
  rw [sequencerStep_advance hs (expand_of_sleepStep hm s) (ne_unmarked_of_sleepStep hm), runMicro_sleepStep hm,
    sleepBody_atScript, advance_atScript]

/-- The bodies of a list of micro-steps, one after the other. -/
def sleepBodies (ms : List Micro) (s : State) : State := ms.foldl (fun u m => sleepBody m u) s

theorem sleepBodies_cons (m : Micro) (ms : List Micro) (s : State) :
    sleepBodies (m :: ms) s = sleepBodies ms (sleepBody m s) := rfl

theorem Running.sleepBodies {s : State} (h : Running s) (ms : List Micro) : Running (sleepBodies ms s) := by
  induction ms generalizing s with
  | nil => exact h
  | cons m ms ih => exact ih (h.sleepBody m)

/-- Such micro-steps one after the other are their bodies, whatever is answered. -/
theorem runSequencer_sleepSteps {ms : List Micro} (hms : ∀ m ∈ ms, isSleepStep m = true) {answers : List Bool}
    (hlen : answers.length = ms.length) {s : State} (hs : Running s) (rest : List Micro) :
    runSequencer answers (advance (ms ++ rest) s) = advance rest (sleepBodies ms s) := by
  induction ms generalizing s answers with
  | nil => rw [List.length_eq_zero_iff.1 hlen]; rfl
  | cons m ms ih =>
    obtain ⟨a, as, rfl⟩ := List.exists_cons_of_length_eq_add_one hlen
    rw [runSequencer_cons, List.cons_append, sequencerStep_sleepStep hs (hms m List.mem_cons_self), sleepBodies_cons]
    exact ih (fun x hx => hms x (List.mem_cons_of_mem m hx)) (Nat.succ.inj hlen) (hs.sleepBody m)

/-! ### The polls -/

/-- The status poll that sees a bit (R130, R131). -/
def statusSeen (s : State) : State :=
  setSeq { s.seq with result := some (pollResult s.slp) }
    (setSlp { s.slp with state := .wokenOrRejected } (emit (.r .intStatus (intStatusWord s.slp)) s))

theorem sequencerStep_statusSeen {s : State} (hs : Running s) (h : (s.slp.wakeupOccurred || s.slp.sleepRejected) = true)
    (rest : List Micro) (a : Bool) :
    sequencerStep a (advance (.pollStatus :: rest) s) = advance rest (statusSeen s) := by
  have hseen : (atScript (.pollStatus :: rest) s).slp.wakeupOccurred ||
      (atScript (.pollStatus :: rest) s).slp.sleepRejected := h
  rw [sequencerStep_advance hs rfl (by simp)]
  dsimp only [runMicro, doPollStatus]
  rw [if_pos hseen]
  exact advance_atScript rest (.pollStatus :: rest) (statusSeen s)

/-- The status poll that sees no bit (R130, R141). -/
theorem sequencerStep_statusClear {s : State} (hs : Running s)
    (h : s.slp.wakeupOccurred = false ∧ s.slp.sleepRejected = false) (rest : List Micro) (a : Bool) :
    sequencerStep a (advance (.pollStatus :: rest) s) = advance (.pollStatus :: rest) (emit (.r .intStatus 0) s) := by
  have hne : Micro.pollStatus ≠ .setProgrammed ∧ ∀ e, Micro.pollStatus ≠ .finish e := by simp
  rw [advance_eq_atScript hne, advance_eq_atScript hne]
  exact sequencerStep_pollsOn (s := atScript (.pollStatus :: rest) s) hs.1 hs.2 rfl h a

/-- `n` reads of a status input that answer `v`. -/
def polled (i : StatusInput) (v : Word) (n : Nat) (s : State) : State :=
  { s with trace := s.trace ++ List.replicate n (.r i v) }

theorem polled_succ (i : StatusInput) (v : Word) (n : Nat) (s : State) :
    polled i v n (emit (.r i v) s) = polled i v (n + 1) s := by
  simp [polled, emit, List.replicate_succ]

theorem runSequencer_statusClear {s : State} (hs : Running s)
    (h : s.slp.wakeupOccurred = false ∧ s.slp.sleepRejected = false) (rest : List Micro) (n : Nat) (a : Bool) :
    runSequencer (List.replicate n a) (advance (.pollStatus :: rest) s) =
      advance (.pollStatus :: rest) (polled .intStatus 0 n s) := by
  induction n generalizing s with
  | zero => simp [runSequencer, polled]
  | succ n ih =>
    rw [List.replicate_succ, runSequencer_cons, sequencerStep_statusClear hs h, ← polled_succ]
    exact ih hs h

theorem sequencerStep_auxIdle {s : State} (hs : Running s) (rest : List Micro) :
    sequencerStep true (advance (.pollAux :: rest) s) = advance rest (emit (.r .auxIdle 1) s) := by
  rw [sequencerStep_advance hs rfl (by simp)]
  exact advance_atScript rest (.pollAux :: rest) (emit (.r .auxIdle 1) s)

theorem sequencerStep_auxBusy {s : State} (hs : Running s) (rest : List Micro) :
    sequencerStep false (advance (.pollAux :: rest) s) = advance (.pollAux :: rest) (emit (.r .auxIdle 0) s) := by
  rw [sequencerStep_advance hs rfl (by simp)]
  exact advance_atScript (.pollAux :: rest) (.pollAux :: rest) (emit (.r .auxIdle 0) s)

theorem runSequencer_auxBusy {s : State} (hs : Running s) (rest : List Micro) (n : Nat) :
    runSequencer (List.replicate n false) (advance (.pollAux :: rest) s) =
      advance (.pollAux :: rest) (polled .auxIdle 0 n s) := by
  induction n generalizing s with
  | zero => simp [runSequencer, polled]
  | succ n ih =>
    rw [List.replicate_succ, runSequencer_cons, sequencerStep_auxBusy hs, ← polled_succ]
    exact ih hs

/-! ### The control lines -/

/-- A control line runs as what it stands for, where that begins with a sleep micro-step. -/
theorem sequencerStep_expand {s : State} (hs : Running s) {m x : Micro} {l rest ms : List Micro} (he : expand s m = some l)
    (hl : l ++ rest = x :: ms) (hx : isSleepStep x = true) (a : Bool) :
    sequencerStep a (advance (m :: rest) s) = sequencerStep a (advance (l ++ rest) s) := by
  have hm : m ≠ .setProgrammed ∧ ∀ e, m ≠ .finish e := by refine ⟨?_, fun e => ?_⟩ <;> rintro rfl <;> cases he
  have hrun : (atScript (m :: rest) s).seq.busy = true ∧ (atScript (m :: rest) s).fault.halted = false := hs
  rw [hl, sequencerStep_sleepStep hs hx, advance_eq_atScript hm]
  unfold sequencerStep
  rw [if_pos hrun, resolveHead_atScript, show (atScript (m :: rest) s).seq.script = m :: rest from rfl, resolveHead, he]
  simp only [hl, resolveHead, expand_of_sleepStep hx]
  rw [runMicro_sleepStep hx, sleepBody_atScript, advance_atScript]

/-- The state after the PROGRAM body (R128, R129). -/
def afterProgram (s : State) : State :=
  { s with
    slp := { s.slp with programmed := true, hwwait := s.slp.params.budget },
    trace := s.trace ++ programEvents s.slp s.cfg.hasModemMode }

/-- No PROGRAM write changes what a later one writes. -/
theorem progValue_progLatch (z : SleepSeq) (f g : RegField) : progValue (progLatch z f) g = progValue z g := by
  cases f <;> cases g <;> rfl

theorem sleepBodies_progWrites (fs : List RegField) (s : State) :
    sleepBodies (fs.map Micro.progWrite) s =
      { s with
        slp := fs.foldl progLatch s.slp,
        trace := s.trace ++ fs.map fun f => .w f (progValue s.slp f) } := by
  induction fs generalizing s with
  | nil => simp [sleepBodies]
  | cons f fs ih =>
    refine (ih (doProgWrite f s)).trans ?_
    simp [doProgWrite, setSlp, emit, progValue_progLatch]

/-- The writes of the table, one event each (R129). -/
theorem programFields_events (z : SleepSeq) (cfg : Cfg) :
    ((programFields cfg z.regdmaEnabled).map fun f => Event.w f (progValue z f)) = programEvents z cfg.hasModemMode := by
  unfold programFields programEvents
  cases z.regdmaEnabled <;> cases cfg.hasModemMode <;> rfl

/-- The writes of the table latch the seven waits and nothing else (R129). -/
theorem programFields_latch (z : SleepSeq) (cfg : Cfg) (regdma : Bool) :
    (programFields cfg regdma).foldl progLatch z = { z with hwwait := z.params.budget } := by
  cases regdma <;> cases hmodem : cfg.hasModemMode <;>
    simp [programFields, hmodem, budgetFields, progLatch, budgetSet, budgetGet]

theorem programFields_length (z : SleepSeq) (cfg : Cfg) :
    (programFields cfg z.regdmaEnabled).length = (programEvents z cfg.hasModemMode).length := by
  rw [← programFields_events, List.length_map]

/-- The PROGRAM body runs to `afterProgram`. -/
theorem runSequencer_program {s : State} (hs : Running s) {answers : List Bool}
    (hlen : answers.length = (programEvents s.slp s.cfg.hasModemMode).length) (rest : List Micro) :
    runSequencer answers (advance (.program :: rest) s) = advance rest (afterProgram s) := by
  rw [← programFields_length] at hlen
  have hbodies : setProgrammed true (sleepBodies ((programFields s.cfg s.slp.regdmaEnabled).map Micro.progWrite) s) =
      afterProgram s := by
    rw [sleepBodies_progWrites, programFields_latch, programFields_events]
    rfl
  have hsteps : runSequencer answers
      (advance ((programFields s.cfg s.slp.regdmaEnabled).map Micro.progWrite ++ (.setProgrammed :: rest)) s) =
        advance rest (afterProgram s) := by
    rw [← hbodies, ← advance_setProgrammed]
    exact runSequencer_sleepSteps (List.forall_mem_map.2 fun _ _ => rfl) (by rw [hlen, List.length_map]) hs _
  obtain ⟨a, as, rfl⟩ : ∃ a as, answers = a :: as := by
    cases answers with
    | nil => simp [programFields] at hlen
    | cons a as => exact ⟨a, as, rfl⟩
  rw [runSequencer_cons, sequencerStep_expand hs (l := programScript s) rfl rfl rfl, ← runSequencer_cons, programScript,
    List.append_assoc]
  exact hsteps

/-- `set_config(saved_cfg)` resolves to a micro-step of the clock ops. -/
theorem resolvesIn_setConfigScript (a : Bool) (s : State) (k : ClockConfig) (rest : List Micro) :
    ResolvesIn a 3 s (setConfigScript s k ++ rest) := by
  rw [setConfigScript_eq]
  cases hthrough : goesThroughCrystal s k with
  | true => exact resolvesIn_apply a 2 s _ _
  | false =>
    rw [leftPll_eq_none hthrough]
    exact resolvesIn_entryScript a s k _ rest

/-- The restore is a `set_config` of the saved configuration (R135). -/
theorem sequencerStep_restoreSaved {s : State} (hs : Running s) (rest : List Micro) (a : Bool) :
    sequencerStep a (advance (.restoreSaved :: rest) s) =
      sequencerStep a (advance (.setConfig s.slp.savedCfg :: rest) s) := by
  obtain ⟨x, ms, hx, hhead⟩ := resolvesIn_setConfigScript a s s.slp.savedCfg rest
  rw [advance_eq_atScript (by simp), advance_eq_atScript (by simp),
    sequencerStep_atScript hs hx (l := .restoreSaved :: rest) (hhead 3 le_rfl),
    sequencerStep_atScript hs hx (l := .setConfig s.slp.savedCfg :: rest) (hhead 3 le_rfl)]

/-! ### The ends of the sleep ops -/

/-- The end of an op whose run has touched neither its mailbox nor its ownership. -/
theorem finishOp_ended (e : Ending) {s v : State} {l : List Micro} {r : Option SleepResult}
    (hmbox : v.mbox = (opened s).mbox)
    (hseq : v.seq = { busy := true, owner := s.env.picked, script := l, result := r }) :
    Released s.env.picked (finishOp e v) ∧ OpEnded s.env.picked .ok s (finishOp e v) := by
  have hv (d : Core) : mboxAt v d = mboxAt (opened s) d := by unfold mboxAt; rw [hmbox]
  have howner : v.seq.owner = s.env.picked := by rw [hseq]
  refine ⟨by rw [Released, finishOp_seq, hseq], fun d hd => ?_, ?_⟩
  · obtain ⟨x, hx⟩ := mboxAt_setResults s.env.picked d e v
    rw [finishOp, howner, release_mboxAt, mboxAt_endOp_ne hd, hx, if_neg hd, hv]
    exact mboxAt_setMbox_ne hd _ _
  · obtain ⟨x, hx⟩ := mboxAt_setResults s.env.picked s.env.picked e v
    rw [finishOp, howner, release_mboxAt, mboxAt_endOp_self, hx, if_pos rfl, hv]
    simp [EndedWith, opened]

theorem resList_finishOp (e : Ending) {s v : State} (howner : v.seq.owner = s.env.picked) :
    resList (finishOp e v) s.env.picked = resList (setResults s.env.picked e v) s.env.picked := by
  simp [resList, finishOp, howner]

/-- No micro-step of a sleep op writes `RES` before the end. -/
theorem resList_of_mbox {s v : State} (hmbox : v.mbox = (opened s).mbox) :
    resList v s.env.picked = resList s s.env.picked := by
  rw [resList, show mboxAt v s.env.picked = mboxAt (opened s) s.env.picked by unfold mboxAt; rw [hmbox]]
  simp [resList, opened]

theorem resList_setRes_zero (c : Core) (w : Word) (s : State) : resList (setRes c 0 w s) c = w :: (resList s c).tail := by
  simp only [resList, mboxAt_setRes, if_true]
  generalize (mboxAt s c).res = xs
  obtain ⟨⟨l⟩, hl⟩ := xs
  cases l with
  | nil => cases hl
  | cons y l => rfl

/-- The end of an op that returns its SleepResult (R131). -/
theorem finishOp_sleepResult {s v : State} {l : List Micro} {r : SleepResult} (hmbox : v.mbox = (opened s).mbox)
    (hseq : v.seq = { busy := true, owner := s.env.picked, script := l, result := some r }) :
    Released s.env.picked (finishOp .sleepResult v) ∧ OpEnded s.env.picked .ok s (finishOp .sleepResult v) ∧
      resList (finishOp .sleepResult v) s.env.picked = sleepResultWord r :: (resList s s.env.picked).tail := by
  obtain ⟨hreleased, hended⟩ := finishOp_ended .sleepResult hmbox hseq
  refine ⟨hreleased, hended, ?_⟩
  rw [resList_finishOp _ (by rw [hseq])]
  simp only [setResults, setResSleep, hseq]
  rw [resList_setRes_zero, resList_of_mbox hmbox]

/-- The end of an op that leaves `RES` alone, with whatever code. -/
theorem release_endOp_ended {s v : State} {l : List Micro} {r : Option SleepResult} (hmbox : v.mbox = (opened s).mbox)
    (hseq : v.seq = { busy := true, owner := s.env.picked, script := l, result := r }) (k : StatusCode) :
    Released s.env.picked (release (endOp s.env.picked k v)) ∧
      OpEndedPlain s.env.picked k s (release (endOp s.env.picked k v)) := by
  have hends := release_endOp_begun (v := setSeq (opened s).seq v) hmbox rfl k
  have hsame : release (endOp s.env.picked k (setSeq (opened s).seq v)) = release (endOp s.env.picked k v) := by
    simp only [release, endOp_seq, hseq]; rfl
  rwa [hsame] at hends

theorem finishOp_plain {s v : State} {l : List Micro} {r : Option SleepResult} (hmbox : v.mbox = (opened s).mbox)
    (hseq : v.seq = { busy := true, owner := s.env.picked, script := l, result := r }) :
    Released s.env.picked (finishOp .plain v) ∧ OpEndedPlain s.env.picked .ok s (finishOp .plain v) := by
  have hfinish : finishOp .plain v = release (endOp s.env.picked .ok v) := by
    rw [finishOp, show v.seq.owner = s.env.picked by rw [hseq]]; rfl
  rw [hfinish]
  exact release_endOp_ended hmbox hseq .ok

/-- The end of a sleep op whose run changed the sleep state and the trace: mailbox and sequencer apart, it leaves all as it
stands. -/
theorem finishOp_eq_of_sleepFields (e : Ending) {s v : State}
    (h : v = { s with mbox := v.mbox, seq := v.seq, slp := v.slp, trace := v.trace }) :
    finishOp e v =
      { s with mbox := (finishOp e v).mbox, seq := (finishOp e v).seq, slp := v.slp, trace := v.trace } := by
  have hkept : finishOp e v = { v with mbox := (finishOp e v).mbox, seq := (finishOp e v).seq } := by
    rw [State.mk.injEq]
    exact ⟨finishOp_cfg e v, rfl, rfl, finishOp_clk e v, finishOp_plls e v, finishOp_curPllFreqMhz e v,
      finishOp_lastCalPll e v, finishOp_slp e v, finishOp_fault e v, finishOp_trace e v, finishOp_env e v⟩
  exact hkept.trans (congrArg (fun u => { u with mbox := (finishOp e v).mbox, seq := (finishOp e v).seq }) h)

end Sys2Proof.Machine
end

section
/-! The wake sequence and the wait-time timer (42_sleep.md R139, R140): each step said once, the ticks that a wake takes at least
and exactly, and the environment's actions. -/

namespace Sys2Proof.Machine

/-! ### Lists of actions -/

theorem runActions_cons {a : Action} {s t : State} (h : act a s = .next t) (rest : List Action) :
    runActions (a :: rest) s = runActions rest t := by
  simp [runActions, h]

theorem runActions_append {as : List Action} {s t : State} (h : runActions as s = .next t) (bs : List Action) :
    runActions (as ++ bs) s = runActions bs t := by
  induction as generalizing s with
  | nil => cases h; rfl
  | cons a as ih =>
    simp only [List.cons_append, runActions] at h ⊢
    cases ha : act a s with
    | next u => rw [ha] at h; exact ih h
    | fault r => rw [ha] at h; cases h
    | refused r => rw [ha] at h; cases h

/-- Micro-steps of the running op, as actions. -/
theorem runActions_sequencer (answers : List Bool) (s : State) :
    runActions (answers.map Action.sequencer) s = .next (runSequencer answers s) := by
  induction answers generalizing s with
  | nil => rfl
  | cons a as ih => exact ih (sequencerStep a s)

theorem runActions_replicate_sequencer (n : Nat) (a : Bool) (s : State) :
    runActions (List.replicate n (.sequencer a)) s = .next (runSequencer (List.replicate n a) s) := by
  rw [← runActions_sequencer, List.map_replicate]

/-- What each action of a list keeps, the list keeps. -/
theorem runActions_keeps_of_mem {Inv : State → Prop} {actions : List Action}
    (hact : ∀ a ∈ actions, ∀ s t, Inv s → act a s = .next t → Inv t) {s t : State} (hs : Inv s)
    (h : runActions actions s = .next t) : Inv t := by
  induction actions generalizing s with
  | nil => cases h; exact hs
  | cons a rest ih =>
    obtain ⟨u, hu⟩ | ⟨hfault, -⟩ := act_next_or_outside a s
    · rw [runActions_cons hu] at h
      exact ih (fun b hb => hact b (List.mem_cons_of_mem a hb)) (hact a List.mem_cons_self s u hs hu) h
    · simp [runActions, hfault] at h

/-! ### The steps of the wake sequence -/

/-- The hardware micro-steps of R140. -/
def timerActions : List Action := [.wakeTrigger, .lpTick, .lpDone, .hpTick, .hpDone]

/-- A hardware micro-step does nothing, or, asleep, touches the timer, `asleep` and `wakeup_occurred` (R140). -/
theorem act_timerAction {a : Action} (ha : a ∈ timerActions) (s : State) :
    act a s = .next s ∨ s.slp.asleep = true ∧ ∃ phase count asleep woke,
      act a s = .next (setSlp
        { s.slp with wtPhase := phase, wtCount := count, asleep := asleep, wakeupOccurred := woke } s) := by
  simp only [timerActions, List.mem_cons, List.not_mem_nil, or_false] at ha
  have cases_of {c : Prop} [Decidable c] {z : SleepSeq} (hc : c → s.slp.asleep = true)
      (hz : ∃ phase count asleep woke,
        z = { s.slp with wtPhase := phase, wtCount := count, asleep := asleep, wakeupOccurred := woke }) :
      (Host.Outcome.next (if c then setSlp z s else s) : Host.Outcome State Fault Refusal) = .next s ∨
        s.slp.asleep = true ∧ ∃ phase count asleep woke,
          (Host.Outcome.next (if c then setSlp z s else s) : Host.Outcome State Fault Refusal) = .next (setSlp
            { s.slp with wtPhase := phase, wtCount := count, asleep := asleep, wakeupOccurred := woke } s) := by
    split
    next h =>
      obtain ⟨phase, count, asleep, woke, rfl⟩ := hz
      exact .inr ⟨hc h, phase, count, asleep, woke, rfl⟩
    next => exact .inl rfl
  obtain rfl | rfl | rfl | rfl | rfl := ha <;> exact cases_of And.left ⟨_, _, _, _, rfl⟩

theorem act_wakeTrigger {s : State} (hasleep : s.slp.asleep = true) (hphase : s.slp.wtPhase = .off)
    (hline : s.env.wakeLines &&& s.slp.wakeEn ≠ 0) :
    act .wakeTrigger s = .next (setSlp { s.slp with wtPhase := .lpWait, wtCount := s.slp.hwwait.lpWait } s) :=
  congrArg Host.Outcome.next (if_pos ⟨hasleep, hphase, hline⟩)

theorem act_lpTick {s : State} (hasleep : s.slp.asleep = true) (hphase : s.slp.wtPhase = .lpWait)
    (hcount : s.slp.wtCount ≠ 0) : act .lpTick s = .next (setSlp { s.slp with wtCount := s.slp.wtCount - 1 } s) :=
  congrArg Host.Outcome.next (if_pos ⟨hasleep, hphase, hcount⟩)

theorem act_lpDone {s : State} (hasleep : s.slp.asleep = true) (hphase : s.slp.wtPhase = .lpWait)
    (hcount : s.slp.wtCount = 0) :
    act .lpDone s = .next (setSlp { s.slp with wtPhase := .hpWait, wtCount := s.slp.hwwait.hpWait } s) :=
  congrArg Host.Outcome.next (if_pos ⟨hasleep, hphase, hcount⟩)

theorem act_hpTick {s : State} (hasleep : s.slp.asleep = true) (hphase : s.slp.wtPhase = .hpWait)
    (hcount : s.slp.wtCount ≠ 0) : act .hpTick s = .next (setSlp { s.slp with wtCount := s.slp.wtCount - 1 } s) :=
  congrArg Host.Outcome.next (if_pos ⟨hasleep, hphase, hcount⟩)

theorem act_hpDone {s : State} (hasleep : s.slp.asleep = true) (hphase : s.slp.wtPhase = .hpWait)
    (hcount : s.slp.wtCount = 0) :
    act .hpDone s = .next (setSlp { s.slp with wtPhase := .off, asleep := false, wakeupOccurred := true } s) :=
  congrArg Host.Outcome.next (if_pos ⟨hasleep, hphase, hcount⟩)

/-! ### The ticks a wake takes exactly -/

/-- Ticks of a phase count down to 0. -/
theorem runActions_ticks {a : Action} {phase : WtPhase}
    (htick : ∀ s : State, s.slp.asleep = true → s.slp.wtPhase = phase → s.slp.wtCount ≠ 0 →
      act a s = .next (setSlp { s.slp with wtCount := s.slp.wtCount - 1 } s))
    {s : State} (hasleep : s.slp.asleep = true) (hphase : s.slp.wtPhase = phase) {n : Nat}
    (hn : s.slp.wtCount.toNat = n) :
    runActions (List.replicate n a) s = .next (setSlp { s.slp with wtCount := 0 } s) := by
  induction n generalizing s with
  | zero =>
    have hzero : s.slp.wtCount = 0 := BitVec.eq_of_toNat_eq hn
    rw [← hzero]; rfl
  | succ n ih =>
    have hcount : s.slp.wtCount ≠ 0 := by rintro h; rw [h] at hn; cases hn
    have hless := toNat_sub_one hcount
    rw [List.replicate_succ, runActions_cons (htick s hasleep hphase hcount)]
    exact ih hasleep hphase (Nat.succ.inj (hless.trans hn))

/-- The whole wake sequence with no other action between its steps (R140). -/
theorem runActions_wakeSchedule {s : State} (hasleep : s.slp.asleep = true) (hphase : s.slp.wtPhase = .off)
    (hline : s.env.wakeLines &&& s.slp.wakeEn ≠ 0) :
    runActions (wakeSchedule s.slp.hwwait) s = .next (setSlp
      { s.slp with asleep := false, wakeupOccurred := true, wtPhase := .off, wtCount := 0 } s) := by
  have hlp := runActions_ticks (a := .lpTick) (fun s => act_lpTick) (n := s.slp.hwwait.lpWait.toNat)
    (s := setSlp { s.slp with wtPhase := .lpWait, wtCount := s.slp.hwwait.lpWait } s) hasleep rfl rfl
  have hhp := runActions_ticks (a := .hpTick) (fun s => act_hpTick) (n := s.slp.hwwait.hpWait.toNat)
    (s := setSlp { s.slp with wtPhase := .hpWait, wtCount := s.slp.hwwait.hpWait } s) hasleep rfl rfl
  unfold wakeSchedule
  simp only [List.append_assoc, List.singleton_append]
  refine (runActions_cons (act_wakeTrigger hasleep hphase hline) _).trans ((runActions_append hlp _).trans ?_)
  have hlpDone := act_lpDone (s := setSlp { s.slp with wtPhase := .lpWait, wtCount := 0 } s) hasleep rfl rfl
  refine (runActions_cons hlpDone _).trans ((runActions_append hhp _).trans ?_)
  exact runActions_cons (act_hpDone (s := setSlp { s.slp with wtPhase := .hpWait, wtCount := 0 } s) hasleep rfl rfl) []

/-- Short of the end of the HP phase the block sleeps on. -/
theorem act_keeps_asleep {a : Action} (ha : a ∈ [Action.wakeTrigger, .lpTick, .lpDone, .hpTick]) {s t : State}
    (hs : s.slp.asleep = true ∧ s.slp.wakeupOccurred = false) (h : act a s = .next t) :
    t.slp.asleep = true ∧ t.slp.wakeupOccurred = false := by
  simp only [List.mem_cons, List.not_mem_nil, or_false] at ha
  have keeps {c : Prop} [Decidable c] {z : SleepSeq} (hz : z.asleep = true ∧ z.wakeupOccurred = false) :
      (if c then setSlp z s else s).slp.asleep = true ∧ (if c then setSlp z s else s).slp.wakeupOccurred = false := by
    split <;> assumption
  obtain rfl | rfl | rfl | rfl := ha <;> cases h <;> exact keeps hs

theorem wakeSchedule_take {b : SleepBudget} {n : Nat} (h : n < (wakeSchedule b).length) :
    ∀ a ∈ (wakeSchedule b).take n, a ∈ [Action.wakeTrigger, .lpTick, .lpDone, .hpTick] := by
  intro a ha
  unfold wakeSchedule at h ha
  rw [List.length_append, List.length_singleton] at h
  rw [List.take_append_of_le_length (by omega)] at ha
  have hmem := List.mem_of_mem_take ha
  simp only [List.mem_append, List.mem_replicate, List.mem_singleton] at hmem
  simp only [List.mem_cons, List.not_mem_nil, or_false]
  tauto

/-! ### The ticks a wake takes at least -/

/-- The LP ticks that are still to come before a wake. -/
def lpTicksLeft (z : SleepSeq) : Nat :=
  match z.wtPhase with
  | .off => z.hwwait.lpWait.toNat
  | .lpWait => z.wtCount.toNat
  | .hpWait => 0

/-- The HP ticks that are still to come before a wake. -/
def hpTicksLeft (z : SleepSeq) : Nat :=
  match z.wtPhase with
  | .off | .lpWait => z.hwwait.hpWait.toNat
  | .hpWait => z.wtCount.toNat

/-- A hardware micro-step of a sleeping block: it sleeps on with at most the tick taken off what is to come, or nothing was to
come. -/
theorem act_timerAction_ticks {a : Action} (ha : a ∈ timerActions) {s t : State}
    (hs : s.slp.asleep = true ∧ s.slp.wakeupOccurred = false) (h : act a s = .next t) :
    ((t.slp.asleep = true ∧ t.slp.wakeupOccurred = false) ∧
        lpTicksLeft s.slp ≤ lpTicksLeft t.slp + [a].count .lpTick ∧
        hpTicksLeft s.slp ≤ hpTicksLeft t.slp + [a].count .hpTick) ∨
      lpTicksLeft s.slp = 0 ∧ hpTicksLeft s.slp = 0 := by
  have hless {n : Word} (hn : n ≠ 0) : n.toNat ≤ (n - 1).toNat + 1 := (toNat_sub_one hn).ge
  simp only [timerActions, List.mem_cons, List.not_mem_nil, or_false] at ha
  obtain rfl | rfl | rfl | rfl | rfl := ha <;> cases h
  · left
    refine ⟨act_keeps_asleep (a := .wakeTrigger) (by simp) hs rfl, ?_⟩
    unfold wakeTrigger
    split
    next h => simp [lpTicksLeft, hpTicksLeft, h.2.1]
    next => simp
  · left
    refine ⟨act_keeps_asleep (a := .lpTick) (by simp) hs rfl, ?_⟩
    unfold lpTick
    split
    next h => simpa [lpTicksLeft, hpTicksLeft, h.2.1] using hless h.2.2
    next => simp
  · left
    refine ⟨act_keeps_asleep (a := .lpDone) (by simp) hs rfl, ?_⟩
    unfold lpDone
    split
    next h => simp [lpTicksLeft, hpTicksLeft, h.2.1, h.2.2]
    next => simp
  · left
    refine ⟨act_keeps_asleep (a := .hpTick) (by simp) hs rfl, ?_⟩
    unfold hpTick
    split
    next h => simpa [lpTicksLeft, hpTicksLeft, h.2.1] using hless h.2.2
    next => simp
  · by_cases hdone : s.slp.asleep = true ∧ s.slp.wtPhase = .hpWait ∧ s.slp.wtCount = 0
    · right; simp [lpTicksLeft, hpTicksLeft, hdone.2.1, hdone.2.2]
    · left
      rw [hpDone, if_neg hdone]
      exact ⟨hs, by simp, by simp⟩

theorem ticks_of_wake {actions : List Action} (hactions : ∀ a ∈ actions, a ∈ timerActions) {s u : State}
    (hs : s.slp.asleep = true ∧ s.slp.wakeupOccurred = false) (h : runActions actions s = .next u)
    (hwoke : u.slp.wakeupOccurred = true) :
    lpTicksLeft s.slp ≤ actions.count .lpTick ∧ hpTicksLeft s.slp ≤ actions.count .hpTick := by
  induction actions generalizing s with
  | nil => cases h; exact absurd (hs.2.symm.trans hwoke) Bool.noConfusion
  | cons a rest ih =>
    have ha := hactions a List.mem_cons_self
    obtain ⟨t, ht⟩ : ∃ t, act a s = .next t := by
      obtain hsame | ⟨-, _, _, _, _, hstep⟩ := act_timerAction ha s
      · exact ⟨_, hsame⟩
      · exact ⟨_, hstep⟩
    rw [runActions_cons ht] at h
    have hcount (b : Action) : (a :: rest).count b = rest.count b + [a].count b := by
      rw [← List.singleton_append, List.count_append, Nat.add_comm]
    rw [hcount, hcount]
    obtain ⟨hasleep, hlp, hhp⟩ | ⟨hlp, hhp⟩ := act_timerAction_ticks ha hs ht
    · obtain ⟨hlpRest, hhpRest⟩ := ih (fun b hb => hactions b (List.mem_cons_of_mem a hb)) hasleep h
      omega
    · omega

/-- Settles O44: the five steps are their conditions, the ticks to come fall by at most the ticks taken, and the schedule runs
phase by phase. -/
theorem wakeSequenceSpendsTheBudget : Obligations.WakeSequenceSpendsTheBudget := by
  refine ⟨fun a s ha => ?_, fun s => ⟨rfl, rfl, rfl, rfl, rfl⟩, fun s u actions hasleep hphase hwoke hactions h hend => ?_,
    fun v s => ⟨rfl, rfl, _, rfl, rfl, BitVec.toNat_add _ _⟩,
    fun s hasleep hphase hwoke hline => ⟨runActions_wakeSchedule hasleep hphase hline, fun n u hn h => ?_⟩⟩
  · obtain hsame | ⟨hasleep, phase, count, asleep, woke, hstep⟩ := act_timerAction ha s
    · exact ⟨s, hsame, rfl, fun _ => rfl⟩
    · exact ⟨_, hstep, rfl, fun hawake => absurd (hawake.symm.trans hasleep) Bool.noConfusion⟩
  · have hticks := ticks_of_wake hactions ⟨hasleep, hwoke⟩ h hend
    rwa [lpTicksLeft, hpTicksLeft, hphase] at hticks
  · exact runActions_keeps_of_mem (Inv := fun s => s.slp.asleep = true ∧ s.slp.wakeupOccurred = false)
      (fun a ha s t hs => act_keeps_asleep (wakeSchedule_take hn a ha) hs) ⟨hasleep, hwoke⟩ h

end Sys2Proof.Machine
end

section
/-! ENTER (42_sleep.md R130, R131, R139, R141): the handshake to the sleep start, the run that a reject line turns back, the run
that sleeps and wakes, and the block that sleeps on without a wake. -/

namespace Sys2Proof.Machine

/-! ### The handshake -/

/-- The micro-steps of `enter_body` down to the sleep start (R130). -/
def handshakeSteps (deep : Bool) (wk rj : Word) : List Micro :=
  [.wakeType deep, .wakeEn wk, .rejectEn rj, .intClr, .sleepStart]

/-- The micro-steps of `enter_body` after the sleep start, and what comes after them. -/
def handshakeTail (rest : List Micro) : List Micro := .pollStatus :: .pollAux :: .enterEnd :: rest

theorem enterScript_append (deep : Bool) (wk rj : Word) (rest : List Micro) :
    enterScript deep wk rj ++ rest = handshakeSteps deep wk rj ++ handshakeTail rest := rfl

/-- The sleep state after a sleep start that an enabled reject line turns back (R139). -/
def turnedBack (deep : Bool) (wk rj : Word) (z : SleepSeq) : SleepSeq :=
  { z with
    state := .armed, wakeType := deep, wakeEn := wk, rejectEn := rj, wakeupOccurred := false, sleepRejected := true }

/-- The sleep state after a sleep start that no enabled reject line turns back (R139). -/
def fallenAsleep (deep : Bool) (wk rj : Word) (z : SleepSeq) : SleepSeq :=
  { z with
    state := .asleep, wakeType := deep, wakeEn := wk, rejectEn := rj, wakeupOccurred := false, sleepRejected := false,
    asleep := true, wtPhase := .off }

/-- The state after the sleep start, with the given sleep state. -/
def handshaken (deep : Bool) (wk rj : Word) (z : SleepSeq) (s : State) : State :=
  { s with slp := z, trace := s.trace ++ handshakeWrites deep wk rj }

/-- The sleep state right before the sleep start (R130). -/
def readyToSleep (deep : Bool) (wk rj : Word) (z : SleepSeq) : SleepSeq :=
  { z with
    state := .armed, wakeType := deep, wakeEn := wk, rejectEn := rj, wakeupOccurred := false, sleepRejected := false }

theorem doIntClr_handshake (deep : Bool) (wk rj : Word) (s : State) :
    doIntClr (doRejectEn rj (doWakeEn wk (doWakeType deep s))) =
      { s with
        slp := readyToSleep deep wk rj s.slp,
        trace := s.trace ++ [.w .wakeType (bit deep), .w .wakeEn wk, .w .rejectEn rj, .w .intClr 3] } := by
  simp [doWakeType, doWakeEn, doRejectEn, doIntClr, setSlp, emit, readyToSleep]

/-- The handshake down to the sleep start is that reaction on the armed block (R139). -/
theorem sleepBodies_handshake (deep : Bool) (wk rj : Word) (s : State) :
    sleepBodies (handshakeSteps deep wk rj) s =
      handshaken deep wk rj (sleepStartReaction s.env.rejectLines (readyToSleep deep wk rj s.slp)) s := by
  show doSleepStart (doIntClr (doRejectEn rj (doWakeEn wk (doWakeType deep s)))) = _
  rw [doIntClr_handshake]
  simp [doSleepStart, setSlp, emit, handshaken, handshakeWrites]

theorem sleepBodies_handshake_rejected (deep : Bool) (wk : Word) {rj : Word} {s : State}
    (h : s.env.rejectLines &&& rj ≠ 0) :
    sleepBodies (handshakeSteps deep wk rj) s = handshaken deep wk rj (turnedBack deep wk rj s.slp) s := by
  rw [sleepBodies_handshake, sleepStartReaction, if_pos (by exact h)]
  rfl

theorem sleepBodies_handshake_asleep (deep : Bool) (wk : Word) {rj : Word} {s : State}
    (h : s.env.rejectLines &&& rj = 0) :
    sleepBodies (handshakeSteps deep wk rj) s = handshaken deep wk rj (fallenAsleep deep wk rj s.slp) s := by
  rw [sleepBodies_handshake, sleepStartReaction, if_neg (not_not.2 (by exact h))]
  rfl

theorem isSleepStep_handshake (deep : Bool) (wk rj : Word) : ∀ m ∈ handshakeSteps deep wk rj, isSleepStep m = true := by
  simp only [handshakeSteps, List.forall_mem_cons]
  exact ⟨rfl, rfl, rfl, rfl, rfl, List.forall_mem_nil _⟩

theorem runSequencer_handshake (deep : Bool) (wk rj : Word) {answers : List Bool} (hlen : answers.length = 5) {s : State}
    (hs : Running s) (rest : List Micro) :
    runSequencer answers (advance (enterScript deep wk rj ++ rest) s) =
      advance (handshakeTail rest) (sleepBodies (handshakeSteps deep wk rj) s) := by
  rw [enterScript_append]
  exact runSequencer_sleepSteps (isSleepStep_handshake deep wk rj) hlen hs _

/-- The state at the end of `enter_body`: one status poll that sees a bit, `k` auxiliary polls that answer 0 and one that
answers 1 (R130, R131). -/
def handshakeEnded (k : Nat) (s : State) : State :=
  { s with
    slp := { s.slp with state := .idle, programmed := false },
    seq := { s.seq with result := some (pollResult s.slp) },
    trace := s.trace ++ [.r .intStatus (intStatusWord s.slp)] ++ List.replicate k (.r .auxIdle 0) ++ [.r .auxIdle 1] }

/-- The status word after a wake (R131). -/
theorem intStatusWord_woken {z : SleepSeq} (hwake : z.wakeupOccurred = true) (hreject : z.sleepRejected = false) :
    intStatusWord z = 1 := by
  rw [intStatusWord, hwake, hreject]; rfl

/-- The status word after a rejection (R131). -/
theorem intStatusWord_rejected {z : SleepSeq} (hwake : z.wakeupOccurred = false) (hreject : z.sleepRejected = true) :
    intStatusWord z = 2 := by
  rw [intStatusWord, hwake, hreject]; rfl

/-- The end of a sleep op at the end of its handshake. -/
theorem finishOp_handshakeEnded (k : Nat) {s v : State} {w : Word} (hword : intStatusWord v.slp = w)
    (hv : v = { s with mbox := v.mbox, seq := v.seq, slp := v.slp, trace := v.trace }) :
    finishOp .sleepResult (handshakeEnded k v) =
      { s with
        mbox := (finishOp .sleepResult (handshakeEnded k v)).mbox, seq := (finishOp .sleepResult (handshakeEnded k v)).seq,
        slp := { v.slp with state := .idle, programmed := false },
        trace := v.trace ++ [.r .intStatus w] ++ List.replicate k (.r .auxIdle 0) ++ [.r .auxIdle 1] } := by
  subst hword
  exact finishOp_eq_of_sleepFields .sleepResult (congrArg (handshakeEnded k) hv)

theorem runSequencer_handshakeTail {s : State} (hs : Running s)
    (hbit : (s.slp.wakeupOccurred || s.slp.sleepRejected) = true) (k : Nat) (a z : Bool) (rest : List Micro) :
    runSequencer (a :: (List.replicate k false ++ [true, z])) (advance (handshakeTail rest) s) =
      advance rest (handshakeEnded k s) := by
  have hseen : Running (statusSeen s) := hs
  have hpolled : Running (polled .auxIdle 0 k (statusSeen s)) := hs
  rw [runSequencer_cons, handshakeTail, sequencerStep_statusSeen hs hbit, runSequencer_append, runSequencer_auxBusy hseen,
    runSequencer_cons, sequencerStep_auxIdle hpolled, runSequencer_cons]
  exact sequencerStep_sleepStep (s := emit (.r .auxIdle 1) (polled .auxIdle 0 k (statusSeen s))) hs rfl rest z

/-! ### The acceptance -/

/-- The script of ENTER. -/
def enterOp (deep : Bool) (wk rj : Word) : List Micro := enterScript deep wk rj ++ [.finish .sleepResult]

theorem exec_enter {s : State} (h : Ready s) (hbuilt : s.slp.state = .paramsBuilt) (hprog : s.slp.programmed = true)
    (deep : Bool) (wk rj : Word) : exec (.enter deep wk rj) s = .next (start (enterOp deep wk rj) s) :=
  sequenced_started h (by simp [firstFailing_cons, hbuilt, hprog]) (fun s => s) _

theorem enterOp_accepted (deep : Bool) (wk rj : Word) (s : State) :
    Accepted s.env.picked s (start (enterOp deep wk rj) s) :=
  start_accepted (keepsRunning_cons _ (by simp) (by simp)) s

/-- ENTER asleep at its status poll. -/
theorem runSequencer_enter_asleep {s : State} (h : Ready s) (deep : Bool) (wk : Word) {rj : Word}
    (hline : s.env.rejectLines &&& rj = 0) :
    runSequencer (List.replicate 5 false) (start (enterOp deep wk rj) s) =
      advance (handshakeTail [.finish .sleepResult])
        (handshaken deep wk rj (fallenAsleep deep wk rj s.slp) (opened s)) := by
  rw [start_eq_opened, enterOp, runSequencer_handshake _ _ _ (List.length_replicate ..) (opened_running h),
    sleepBodies_handshake_asleep deep wk (s := opened s) hline]
  rfl

/-! ### The run that is turned back -/

/-- The items of ENTER's run. -/
def enterItem : Micro → Prop
  | .wakeType _ | .wakeEn _ | .rejectEn _ | .intClr | .sleepStart | .pollStatus | .pollAux | .enterEnd | .finish _ => True
  | _ => False

/-- Every sleep start of a script comes under an enabled reject line, `mask` being enabled where the script begins. -/
def startsRejected (lines : Word) : Word → List Micro → Prop
  | _, [] => True
  | mask, m :: rest =>
    (m = .sleepStart → lines &&& mask ≠ 0) ∧
      startsRejected lines (match m with | .rejectEn rj => rj | _ => mask) rest

/-- Along the run of an ENTER that is turned back: every sleep start to come is, and the block does not fall asleep. -/
structure TurnedBackRun (asleep : Bool) (u : State) : Prop where
  items : ∀ m ∈ u.seq.script, enterItem m
  rejected : startsRejected u.env.rejectLines u.slp.rejectEn u.seq.script
  same : u.slp.asleep = asleep
  state : u.slp.state ≠ .asleep

theorem expand_of_enterItem {m : Micro} (hm : enterItem m) (s : State) : expand s m = none := by
  cases m with
  | setConfig | restoreSaved | bringUp | apply | program => cases hm
  | _ => rfl

/-- The end of a micro-step of ENTER keeps the run, where the script after it does. -/
theorem TurnedBackRun.advance {asleep : Bool} {l : List Micro} {u : State} (hitems : ∀ m ∈ l, enterItem m)
    (hrejected : startsRejected u.env.rejectLines u.slp.rejectEn l) (hsame : u.slp.asleep = asleep)
    (hstate : u.slp.state ≠ .asleep) : TurnedBackRun asleep (advance l u) := by
  induction l, u using advance.induct with
  | case1 rest u => cases hitems .setProgrammed List.mem_cons_self
  | case2 e rest u =>
    rw [advance_finish]
    refine ⟨by simp, ?_, ?_, ?_⟩
    · rw [finishOp_seq]; trivial
    · rw [finishOp_slp]; exact hsame
    · rw [finishOp_slp]; exact hstate
  | case3 l u h1 h2 =>
    have hadvance : Machine.advance l u = atScript l u := by simp [Machine.advance, atScript]
    rw [hadvance]
    exact ⟨hitems, hrejected, hsame, hstate⟩

theorem TurnedBackRun.sequencerStep {asleep : Bool} {u : State} (h : TurnedBackRun asleep u) (a : Bool) :
    TurnedBackRun asleep (sequencerStep a u) := by
  obtain hkept | ⟨m, rest, -, -, hhead, hstep⟩ := sequencerStep_cases a u
  · rwa [hkept]
  have hscript : u.seq.script = m :: rest := by
    cases hl : u.seq.script with
    | nil => rw [hl] at hhead; cases hhead
    | cons x l =>
      rw [hl, resolveHead, expand_of_enterItem (h.items x (by rw [hl]; exact List.mem_cons_self))] at hhead
      exact hhead
  have hitems := h.items
  have hrejected := h.rejected
  rw [hscript] at hitems hrejected
  have hrest : ∀ x ∈ rest, enterItem x := fun x hx => hitems x (List.mem_cons_of_mem m hx)
  have hall := hrejected
  obtain ⟨hstart, hrejected⟩ := hrejected
  rw [hstep]
  cases m with
  | wakeType | wakeEn | intClr => exact .advance hrest hrejected h.same h.state
  | rejectEn rj => exact .advance hrest hrejected h.same (by simp [doRejectEn])
  | sleepStart =>
    dsimp only [runMicro]
    rw [doSleepStart_rejected (hstart rfl)]
    exact .advance hrest hrejected h.same h.state
  | pollStatus =>
    dsimp only [runMicro, doPollStatus]
    split
    · exact .advance hrest hrejected h.same (by simp)
    · exact .advance hitems hall h.same h.state
  | pollAux =>
    cases a with
    | true => exact .advance hrest hrejected h.same h.state
    | false => exact .advance hitems hall h.same h.state
  | enterEnd => exact .advance hrest hrejected h.same (by simp [doEnterEnd])
  | finish e => exact .advance hitems hall h.same h.state
  | _ => cases hitems _ List.mem_cons_self

theorem turnedBackRun_enter {s : State} (hbuilt : s.slp.state = .paramsBuilt) (deep : Bool) (wk : Word) {rj : Word}
    (hline : s.env.rejectLines &&& rj ≠ 0) : TurnedBackRun s.slp.asleep (start (enterOp deep wk rj) s) := by
  rw [start_eq_opened]
  refine .advance ?_ ?_ rfl ?_
  · simp only [enterOp, enterScript, List.cons_append, List.nil_append, List.forall_mem_cons]
    exact ⟨trivial, trivial, trivial, trivial, trivial, trivial, trivial, trivial, trivial, List.forall_mem_nil _⟩
  · show startsRejected _ _ [.wakeType deep, .wakeEn wk, .rejectEn rj, .intClr, .sleepStart, .pollStatus, .pollAux, .enterEnd,
      .finish .sleepResult]
    exact ⟨nofun, nofun, nofun, nofun, fun _ => hline, nofun, nofun, nofun, nofun, trivial⟩
  · rw [show (opened s).slp = s.slp from rfl, hbuilt]
    exact nofun

/-- Settles O41: no micro-step of the run puts the block to sleep, and the run is the handshake and its end. -/
theorem enterRejected : Obligations.EnterRejected := by
  intro deep wk rj s answers k z hready hbuilt hprog hline hlen
  refine ⟨_, exec_enter hready hbuilt hprog deep wk rj, enterOp_accepted deep wk rj s, ?_, ?_⟩
  · rintro n v rfl
    have hrun := runSequencer_keeps (Inv := TurnedBackRun s.slp.asleep) (fun a u hu => hu.sequencerStep a)
      ((answers ++ List.replicate k false ++ [true, z]).take n) (s := start (enterOp deep wk rj) s)
      (turnedBackRun_enter hbuilt deep wk hline)
    exact ⟨hrun.same, hrun.state, fun hinv => hrun.same.trans (hinv.awake_of_ready hready)⟩
  · rintro u rfl
    obtain rfl | ⟨steps, a, rfl⟩ := List.eq_nil_or_concat answers
    · cases hlen
    rw [List.concat_eq_append] at hlen ⊢
    have hsteps : steps.length = 5 := by simpa using hlen
    have hturned : Running (handshaken deep wk rj (turnedBack deep wk rj s.slp) (opened s)) := opened_running hready
    have hend : runSequencer (steps ++ [a] ++ List.replicate k false ++ [true, z]) (start (enterOp deep wk rj) s) =
        finishOp .sleepResult (handshakeEnded k (handshaken deep wk rj (turnedBack deep wk rj s.slp) (opened s))) := by
      rw [List.append_assoc, List.append_assoc, runSequencer_append, start_eq_opened, enterOp,
        runSequencer_handshake _ _ _ hsteps (opened_running hready),
        sleepBodies_handshake_rejected deep wk (s := opened s) hline]
      exact runSequencer_handshakeTail hturned rfl k a z _
    obtain ⟨hreleased, hended, hres⟩ := finishOp_sleepResult (s := s) (r := .rejected)
      (v := handshakeEnded k (handshaken deep wk rj (turnedBack deep wk rj s.slp) (opened s))) rfl rfl
    have hstate := finishOp_handshakeEnded k (s := s) (v := handshaken deep wk rj (turnedBack deep wk rj s.slp) (opened s))
      (intStatusWord_rejected rfl rfl) rfl
    rw [hend]
    exact ⟨hstate, hres, hreleased, hended⟩

/-! ### The run that sleeps and wakes -/

/-- ENTER asleep after `p` status polls that see nothing. -/
def sleptOn (deep : Bool) (wk rj : Word) (p : Nat) (s : State) : State :=
  polled .intStatus 0 p (handshaken deep wk rj (fallenAsleep deep wk rj s.slp) (opened s))

/-- The sleep state after a wake by the timer (R140). -/
def wokenSlp (z : SleepSeq) : SleepSeq :=
  { z with asleep := false, wakeupOccurred := true, wtPhase := .off, wtCount := 0 }

/-- The block woken by the timer (R140). -/
def wokenUp (s : State) : State := setSlp (wokenSlp s.slp) s

/-- Settles O42: the handshake, status polls that see nothing, the wake schedule, and the end of the handshake. -/
theorem enterWoken : Obligations.EnterWoken := by
  intro deep wk rj s p k z hready hbuilt hprog hreject hwake
  refine ⟨_, exec_enter hready hbuilt hprog deep wk rj, enterOp_accepted deep wk rj s, ?_, ?_, ?_⟩
  · rw [runSequencer_enter_asleep hready deep wk hreject]; rfl
  · rw [runSequencer_enter_asleep hready deep wk hreject]; rfl
  have hrunning : Running (handshaken deep wk rj (fallenAsleep deep wk rj s.slp) (opened s)) := opened_running hready
  have hasleep : runActions (List.replicate (5 + p) (.sequencer false)) (start (enterOp deep wk rj) s) =
      .next (advance (handshakeTail [.finish .sleepResult]) (sleptOn deep wk rj p s)) := by
    rw [runActions_replicate_sequencer, List.replicate_add, runSequencer_append,
      runSequencer_enter_asleep hready deep wk hreject, handshakeTail, runSequencer_statusClear hrunning ⟨rfl, rfl⟩]
    rfl
  have hwoken : runActions (wakeSchedule s.slp.hwwait)
      (advance (handshakeTail [.finish .sleepResult]) (sleptOn deep wk rj p s)) =
        .next (advance (handshakeTail [.finish .sleepResult]) (wokenUp (sleptOn deep wk rj p s))) :=
    runActions_wakeSchedule (s := advance (handshakeTail [.finish .sleepResult]) (sleptOn deep wk rj p s)) rfl rfl hwake
  have hended : runActions
      ([.sequencer false] ++ List.replicate k (.sequencer false) ++ [.sequencer true, .sequencer z])
      (advance (handshakeTail [.finish .sleepResult]) (wokenUp (sleptOn deep wk rj p s))) =
        .next (finishOp .sleepResult (handshakeEnded k (wokenUp (sleptOn deep wk rj p s)))) := by
    have hactions : [.sequencer false] ++ List.replicate k (.sequencer false) ++ [.sequencer true, .sequencer z] =
        (false :: (List.replicate k false ++ [true, z])).map Action.sequencer := by simp
    rw [hactions, runActions_sequencer, runSequencer_handshakeTail (s := wokenUp (sleptOn deep wk rj p s)) hrunning rfl]
    rfl
  have hstate := finishOp_handshakeEnded k (s := s) (v := wokenUp (sleptOn deep wk rj p s)) (intStatusWord_woken rfl rfl) rfl
  obtain ⟨hreleased, hop, hres⟩ := finishOp_sleepResult (s := s) (r := .woken)
    (v := handshakeEnded k (wokenUp (sleptOn deep wk rj p s))) rfl rfl
  refine ⟨_, ?_, hstate, hres, hreleased, hop⟩
  rw [List.append_assoc, List.append_assoc, List.append_assoc]
  exact (runActions_append hasleep _).trans ((runActions_append hwoken _).trans hended)

/-! ### The block that sleeps on -/

/-- `t` sleeps on as `s` does: the same op at its status poll, no wake in sight, and no fault since. -/
structure SleepsOn (s t : State) : Prop where
  idle : SleepingIdle t
  wakeEn : t.slp.wakeEn = s.slp.wakeEn
  owner : t.seq.owner = s.seq.owner
  fault : t.fault = s.fault

theorem SleepsOn.refl {s : State} (h : SleepingIdle s) : SleepsOn s s := ⟨h, rfl, rfl, rfl⟩

/-- What leaves the running op, the sleep bits, the enabled lines and the fault alone leaves the block asleep. -/
theorem SleepingIdle.sleepsOn {s t : State} (h : SleepingIdle s) (hseq : t.seq = s.seq) (hbits : SameBits s t)
    (hmask : t.slp.wakeEn = s.slp.wakeEn) (hline : t.env.wakeLines &&& s.slp.wakeEn = 0) (hfault : t.fault = s.fault) :
    SleepsOn s t := by
  obtain ⟨hbusy, hpoll, hasleep, hphase, hwoke, hrejected, -⟩ := h
  obtain ⟨hwoke', hrejected', hasleep', hphase'⟩ := hbits
  exact ⟨⟨hseq ▸ hbusy, hseq ▸ hpoll, hasleep'.trans hasleep, hphase'.trans hphase, hwoke'.trans hwoke,
    hrejected'.trans hrejected, hmask ▸ hline⟩, hmask, congrArg _ hseq, hfault⟩

/-- With no wake in sight the hardware does nothing (R140, R141). -/
theorem act_timerAction_idle {a : Action} (ha : a ∈ timerActions) {s : State} (hphase : s.slp.wtPhase = .off)
    (hline : s.env.wakeLines &&& s.slp.wakeEn = 0) : act a s = .next s := by
  simp only [timerActions, List.mem_cons, List.not_mem_nil, or_false] at ha
  have hno {phase : WtPhase} {p : Prop} (hne : phase ≠ .off) : ¬(s.slp.asleep = true ∧ s.slp.wtPhase = phase ∧ p) := by
    rintro ⟨-, h, -⟩; exact hne (h.symm.trans hphase)
  obtain rfl | rfl | rfl | rfl | rfl := ha
  · exact congrArg Host.Outcome.next (if_neg fun h => h.2.2 hline)
  all_goals exact congrArg Host.Outcome.next (if_neg (hno (by simp)))

/-- The fault record of a PLL_REMOVE_CONSUMER of a PLL that no consumer holds (41_pll.md R110). -/
def removeFault (id : PllId) : FaultReg := { halted := true, code := 0x03, info := pllFaultInfo id 2 }

/-- An op accepted while the block sleeps: it leaves the block asleep, or it is the fatal fault of a remove. -/
theorem SleepingIdle.exec {s t : State} {i : Instr} (h : SleepingIdle s) (hexec : exec i s = .next t) :
    SleepsOn s t ∨ s.fault.halted = false ∧ ∃ id, t.fault = removeFault id := by
  have hline : s.env.wakeLines &&& s.slp.wakeEn = 0 := h.2.2.2.2.2.2
  obtain ⟨k, rfl⟩ | rfl | ⟨-, ⟨-, hidle⟩, -⟩ | ⟨-, hrun, himm⟩ := exec_cases i s t hexec
  · exact .inl (h.sleepsOn rfl (.of_slp rfl) rfl hline rfl)
  · exact .inl (.refl h)
  · exact absurd (hidle.symm.trans h.1) Bool.noConfusion
  · obtain ⟨f, k, -, rfl⟩ | ⟨-, rfl⟩ | ⟨id, -, -, rfl⟩ | ⟨id, -, -, rfl⟩ | ⟨id, -, -, rfl⟩ | ⟨k, p, -, rfl⟩ := himm
    · exact .inl (h.sleepsOn rfl (.of_slp rfl) rfl hline rfl)
    · exact .inl (h.sleepsOn rfl (.of_slp rfl) rfl hline rfl)
    · exact .inl (h.sleepsOn rfl (.of_slp rfl) rfl hline rfl)
    · exact .inl (h.sleepsOn rfl (.of_slp rfl) rfl hline rfl)
    · refine .inr ⟨hrun, id, ?_⟩
      rw [raiseFatal_fault, hrun]; rfl
    · exact .inl (h.sleepsOn rfl (.of_slp rfl) rfl hline rfl)

theorem SleepingIdle.writeReg {s : State} (h : SleepingIdle s) (off : Nat) (v : Word) : SleepsOn s (writeReg off v s) := by
  obtain ⟨mb, z, hw, p, b, l, rfl⟩ := writeReg_frame off v s
  rw [hw]
  exact h.sleepsOn rfl ⟨rfl, rfl, rfl, rfl⟩ rfl h.2.2.2.2.2.2 rfl

theorem SleepingIdle.sequencerStep {s : State} (h : SleepingIdle s) (a : Bool) : SleepsOn s (sequencerStep a s) := by
  obtain hsame | ⟨m, rest, hbusy, hrun, -, -⟩ := sequencerStep_cases a s
  · rw [hsame]; exact .refl h
  · obtain ⟨-, hpoll, -, -, hwoke, hrejected, hline⟩ := id h
    rw [sequencerStep_pollsOn hbusy hrun hpoll ⟨hwoke, hrejected⟩]
    exact h.sleepsOn rfl (.of_slp rfl) rfl hline rfl

/-- The acceptance of a core's command leaves the state as it is, or it is an op, or the refusal of an illegal word, with the
core picked (30_encoding.md R72). -/
theorem acceptCommand_cases {c : Core} {s t : State} (h : acceptCommand c s = .next t) :
    t = s ∨ (∃ i, exec i (setEnv { s.env with picked := c } s) = .next t) ∨
      t = endOp c .illegalCmd (setEnv { s.env with picked := c } s) := by
  unfold acceptCommand at h
  split at h
  · split at h
    · exact .inr (.inl ⟨_, h⟩)
    · cases h; exact .inr (.inr rfl)
  · cases h; exact .inl rfl

/-- One action on the sleeping block. -/
theorem SleepingIdle.act {s t : State} {a : Action} (h : SleepingIdle s) (ha : noWakeIn s.slp.wakeEn a)
    (hact : act a s = .next t) :
    SleepsOn s t ∨ s.fault.halted = false ∧ ∃ c id, a = .accept c ∧ t.fault = removeFault id := by
  obtain ⟨-, -, -, hphase, -, -, hline⟩ := id h
  have timer (hmem : a ∈ timerActions) : SleepsOn s t := by
    cases (act_timerAction_idle hmem hphase hline).symm.trans hact
    exact .refl h
  cases a with
  | hostWrite addr bytes v =>
    obtain hin | hout := Nat.lt_or_ge (windowOffset s.cfg addr) 0x1000
    · cases (act_hostWrite_inside hin bytes v).symm.trans hact
      split
      · exact .inl (h.writeReg _ _)
      · exact .inl (.refl h)
    · cases (act_hostWrite_outside hout bytes v).symm.trans hact
  | hostRead addr bytes =>
    obtain hin | hout := Nat.lt_or_ge (windowOffset s.cfg addr) 0x1000
    · cases (act_hostRead_inside hin bytes).symm.trans hact
      exact .inl (h.sleepsOn rfl (.of_slp rfl) rfl hline rfl)
    · cases (act_hostRead_outside hout bytes).symm.trans hact
  | accept c =>
    obtain rfl | ⟨i, hexec⟩ | rfl := acceptCommand_cases hact
    · exact .inl (.refl h)
    · obtain ⟨hidle, hmask, howner, hfault⟩ | ⟨hrun, id, hfault⟩ :=
        SleepingIdle.exec (s := setEnv { s.env with picked := c } s) h hexec
      · exact .inl ⟨hidle, hmask, howner, hfault⟩
      · exact .inr ⟨hrun, c, id, rfl, hfault⟩
    · exact .inl (h.sleepsOn rfl (.of_slp rfl) rfl hline rfl)
  | sequencer answer => cases hact; exact .inl (h.sequencerStep answer)
  | wakeTrigger | lpTick | lpDone | hpTick | hpDone => exact .inl (timer (by simp [timerActions]))
  | setWakeLines v => cases hact; exact .inl (h.sleepsOn rfl (.of_slp rfl) rfl ha rfl)
  | setRejectLines | addCycles => cases hact; exact .inl (h.sleepsOn rfl (.of_slp rfl) rfl hline rfl)
  | reset => cases ha

/-! ### The fault record in HALT -/

/-- In HALT no action short of RESET changes the fault record (60_exceptions.md R156). -/
theorem act_keeps_haltedFault {s t : State} {a : Action} (hhalt : s.fault.halted = true) (ha : a ≠ .reset)
    (hact : act a s = .next t) : t.fault = s.fault := by
  have timer (hmem : a ∈ timerActions) : t.fault = s.fault := by
    obtain hsame | ⟨-, _, _, _, _, hstep⟩ := act_timerAction hmem s
    · cases hsame.symm.trans hact; rfl
    · cases hstep.symm.trans hact; rfl
  cases a with
  | hostWrite addr bytes v =>
    obtain hin | hout := Nat.lt_or_ge (windowOffset s.cfg addr) 0x1000
    · cases (act_hostWrite_inside hin bytes v).symm.trans hact
      split
      · obtain ⟨mb, z, hw, -⟩ := writeReg_frame (windowOffset s.cfg addr) v s
        rw [hw]
      · rfl
    · cases (act_hostWrite_outside hout bytes v).symm.trans hact
  | hostRead addr bytes =>
    obtain hin | hout := Nat.lt_or_ge (windowOffset s.cfg addr) 0x1000
    · cases (act_hostRead_inside hin bytes).symm.trans hact; rfl
    · cases (act_hostRead_outside hout bytes).symm.trans hact
  | accept c =>
    obtain rfl | ⟨i, hexec⟩ | rfl := acceptCommand_cases hact
    · rfl
    · cases (exec_halted i (s := setEnv { s.env with picked := c } s) hhalt).symm.trans hexec; rfl
    · rfl
  | sequencer answer =>
    cases hact
    obtain hsame | ⟨m, rest, -, hrun, -⟩ := sequencerStep_cases answer s
    · rw [hsame]
    · exact absurd (hhalt.symm.trans hrun) Bool.noConfusion
  | wakeTrigger | lpTick | lpDone | hpTick | hpDone => exact timer (by simp [timerActions])
  | setWakeLines | setRejectLines | addCycles => cases hact; rfl
  | reset => exact absurd rfl ha

theorem runActions_keeps_haltedFault {s t : State} {actions : List Action} (hhalt : s.fault.halted = true)
    (hactions : ∀ a ∈ actions, a ≠ .reset) (h : runActions actions s = .next t) : t.fault = s.fault := by
  refine runActions_keeps_of_mem (Inv := fun u => u.fault = s.fault) (fun a ha u v hu hact => ?_) rfl h
  exact (act_keeps_haltedFault (hu ▸ hhalt) (hactions a ha) hact).trans hu

/-! ### Any number of actions -/

theorem ne_reset_of_noWakeIn {mask : Word} {a : Action} (h : noWakeIn mask a) : a ≠ .reset := by
  rintro rfl; exact h

theorem runActions_sleepingIdle {s u : State} {actions : List Action} (h : SleepingIdle s)
    (hactions : ∀ a ∈ actions, noWakeIn s.slp.wakeEn a) (hrun : runActions actions s = .next u) :
    SleepsOn s u ∨
      s.fault.halted = false ∧ ∃ c id, Action.accept c ∈ actions ∧ u.fault = removeFault id := by
  induction actions generalizing s with
  | nil => cases hrun; exact .inl (.refl h)
  | cons a rest ih =>
    have hrest : ∀ b ∈ rest, noWakeIn s.slp.wakeEn b := fun b hb => hactions b (List.mem_cons_of_mem a hb)
    obtain ⟨t, ht⟩ | ⟨hfault, -⟩ := act_next_or_outside a s
    · rw [runActions_cons ht] at hrun
      obtain ⟨hidle, hmask, howner, hfault⟩ | ⟨hgoes, c, id, rfl, hfault⟩ := h.act (hactions a List.mem_cons_self) ht
      · rw [← hmask] at hrest
        obtain hon | ⟨hgoes, c, id, hmem, hremove⟩ := ih hidle hrest hrun
        · exact .inl ⟨hon.idle, hon.wakeEn.trans hmask, hon.owner.trans howner, hon.fault.trans hfault⟩
        · exact .inr ⟨hfault ▸ hgoes, c, id, List.mem_cons_of_mem a hmem, hremove⟩
      · have hhalt : t.fault.halted = true := by rw [hfault]; rfl
        have hkept := runActions_keeps_haltedFault hhalt (fun b hb => ne_reset_of_noWakeIn (hrest b hb)) hrun
        exact .inr ⟨hgoes, c, id, List.mem_cons_self, hkept.trans hfault⟩
    · simp [runActions, hfault] at hrun

/-- Settles O43: the handshake ends asleep at the status poll, and each action leaves the block there or is the fatal fault of
a remove. -/
theorem enterNeverEndsWithoutAWake : Obligations.EnterNeverEndsWithoutAWake := by
  refine ⟨fun deep wk rj s hready hbuilt hprog hreject hwake => ?_, fun s u actions h hactions hrun => ?_⟩
  · refine ⟨_, exec_enter hready hbuilt hprog deep wk rj, ?_⟩
    rw [runSequencer_enter_asleep hready deep wk hreject]
    exact ⟨⟨rfl, rfl, rfl, rfl, rfl, rfl, hwake⟩, rfl⟩
  · obtain hon | ⟨-, c, id, hmem, hfault⟩ := runActions_sleepingIdle h hactions hrun
    · exact .inl ⟨hon.idle, hon.owner, hon.fault⟩
    · exact .inr ⟨by rw [hfault]; rfl, .inr ⟨c, id, hmem, hfault⟩⟩

end Sys2Proof.Machine
end

section
/-! The budget (42_sleep.md R123 to R127, R137) and the sleep ops that do not sleep: BUILD_PARAMS (R122), PROGRAM (R128, R129),
the REGDMA toggles (R133, R134) and CFG_PWR_MODE_DEFAULTS (R136). -/

namespace Sys2Proof.Machine

/-! ### The budget -/

theorem cyclesHp_eq (us mhz : Nat) : cyclesHp us mhz = us * mhz := by
  have hassoc : us * (mhz * 1000000) = us * mhz * 1000000 := (Nat.mul_assoc ..).symm
  unfold cyclesHp cycles
  omega

theorem cycles_mono {us us' : Nat} (h : us ≤ us') (hz : Nat) : cycles us hz ≤ cycles us' hz :=
  Nat.div_le_div_right (Nat.add_le_add_right (Nat.mul_le_mul_right hz h) _)

/-- Settles O33: `cycles` is a division with the half added, and in the HP domain it divides exactly. -/
theorem cyclesRoundToNearest : Obligations.CyclesRoundToNearest := by
  refine ⟨fun us hz => ?_, cyclesHp_eq, fun cfg lpHz hpMhz mf pd adj => ⟨rfl, cyclesHp_eq _ _⟩⟩
  unfold cycles
  generalize us * hz = product
  omega

theorem hpWaitUs_mono (cfg : Cfg) {pd pd' : Word} (hon : pdXtal pd' = false) : hpWaitUs cfg pd' ≤ hpWaitUs cfg pd := by
  have hclock : clockWaitUs cfg pd' = 0 := by simp [clockWaitUs, hon]
  unfold hpWaitUs
  omega

theorem lpWaitUs_mono (cfg : Cfg) (mf : Word) {lpHz : Nat} {pd pd' : Word} (hoff : pdXtal pd = true)
    (hconst : usOfLp lpHz cfg.lp.clkPowerOnWaitCycles.toNat ≤ cfg.lp.xtalStableWaitUs.toNat) :
    lpWaitUs cfg lpHz mf pd' ≤ lpWaitUs cfg lpHz mf pd := by
  have hclock : clockPowerOnWaitUs cfg lpHz mf pd' ≤ clockPowerOnWaitUs cfg lpHz mf pd := by
    unfold clockPowerOnWaitUs
    rw [hoff, Bool.true_or, if_pos rfl]
    split
    · exact le_rfl
    · exact hconst
  unfold lpWaitUs
  omega

/-- Settles O34: a crystal that is powered down adds a term to each maximum or sum, and cycles grow with microseconds. -/
theorem budgetIsMonotoneInPdXtal : Obligations.BudgetIsMonotoneInPdXtal := by
  intro cfg lpHz hpMhz mf pd pd' adj hoff hon
  have hhp : hpWaitUs cfg pd' ≤ hpWaitUs cfg pd := hpWaitUs_mono cfg hon
  refine ⟨hhp, cycles_mono hhp _, fun hconst => ?_⟩
  have hlp := lpWaitUs_mono cfg mf (pd' := pd') hoff hconst
  exact ⟨hlp, cycles_mono hlp _⟩

theorem narrowField_toNat {n : Nat} (h : n < 2 ^ 32) : (narrowField n).toNat = n := by
  rw [narrowField, if_pos h, BitVec.toNat_ofNat, Nat.mod_eq_of_lt h]

/-! ### BUILD_PARAMS -/

/-- The checks of BUILD_PARAMS and ENTER_SLEEP at a CPU frequency (R122, R135). -/
def budgetChecks (s : State) (mhz mf pd adj : Word) : List (Bool × StatusCode) :=
  [(modeFlagsOk s.cfg mf, .badMode), (decide (1 ≤ s.slp.lpClkFreqHz.toNat), .invalidConfig),
    (budgetFits (wideBudget s.cfg s.slp.lpClkFreqHz mhz mf pd adj), .budgetOverflow)]

theorem budgetChecks_pass {s : State} {mhz mf pd adj : Word} (hmode : modeFlagsOk s.cfg mf = true)
    (hclk : 1 ≤ s.slp.lpClkFreqHz.toNat)
    (hfits : budgetFits (wideBudget s.cfg s.slp.lpClkFreqHz mhz mf pd adj) = true) :
    firstFailing (budgetChecks s mhz mf pd adj) = none := by
  rw [budgetChecks, hmode, decide_eq_true hclk, hfits]; rfl

/-- The script of ENTER_SLEEP (R135). -/
def enterSleepScript (cfg : Cfg) (deep : Bool) (wk rj mf pd adj : Word) : List Micro :=
  [.setConfig (xtalNative cfg), .buildParams mf pd adj, .program] ++ enterScript deep wk rj ++
    [.restoreSaved, .finish .sleepResult]

theorem exec_buildParams_eq (mf pd adj : Word) (s : State) :
    exec (.buildParams mf pd adj) s = sequenced (budgetChecks s s.clk.cur.freqMhz mf pd adj) (fun s => s)
      [.buildParams mf pd adj, .finish .budget] s := rfl

theorem exec_enterSleep_eq (deep : Bool) (wk rj mf pd adj : Word) (s : State) :
    exec (.enterSleep deep wk rj mf pd adj) s = sequenced (budgetChecks s s.cfg.xtalFreqMhz mf pd adj) saveConfig
      (enterSleepScript s.cfg deep wk rj mf pd adj) s := rfl

/-- Settles O36: each op turns its command away with the first of the three checks that fails. -/
theorem budgetRefusals : Obligations.BudgetRefusals := by
  intro deep wk rj mf pd adj s i mhz hready hop
  obtain ⟨prep, script, hexec⟩ :
      ∃ prep script, exec i s = sequenced (budgetChecks s mhz mf pd adj) prep script s := by
    obtain ⟨rfl, rfl⟩ | ⟨rfl, rfl⟩ := hop
    · exact ⟨_, _, exec_buildParams_eq mf pd adj s⟩
    · exact ⟨_, _, exec_enterSleep_eq deep wk rj mf pd adj s⟩
  have refused {t : State} (ht : exec i s = .next t) {k : StatusCode}
      (hk : firstFailing (budgetChecks s mhz mf pd adj) = some k) : RefusedWith s.env.picked k s t := by
    cases ht.symm.trans (hexec.trans (sequenced_refused hready hk prep script))
    exact endOp_refusedWith _ k s
  obtain ⟨t, ht⟩ := exec_total i s
  refine ⟨t, ht, fun hmode => refused ht ?_, fun hmode hclk => refused ht ?_, fun hmode hclk hfits => refused ht ?_⟩
  · rw [budgetChecks, hmode]; rfl
  · rw [budgetChecks, hmode, hclk]; rfl
  · rw [budgetChecks, hmode, decide_eq_true ((one_le_toNat_iff _).2 hclk), hfits]; rfl

theorem regs5_toList (r : Regs5) : r.toList = [r[0], r[1], r[2], r[3], r[4]] := by
  apply List.ext_getElem
  · simp
  · intro i hi _
    have hi5 : i < 5 := by simpa using hi
    rw [Vector.getElem_toList]
    match i, hi5 with
    | 0, _ | 1, _ | 2, _ | 3, _ | 4, _ => rfl

/-- The end of BUILD_PARAMS (R122): three words of the budget in `RES`. -/
theorem resList_finishOp_budget {s v : State} (hmbox : v.mbox = (opened s).mbox) (howner : v.seq.owner = s.env.picked) :
    resList (finishOp .budget v) s.env.picked =
      [v.slp.params.budget.lpWait, v.slp.params.budget.hpWait, v.slp.params.budget.totalGuardTimeUs] ++
        (resList s s.env.picked).drop 3 := by
  rw [resList_finishOp _ howner, ← resList_of_mbox hmbox]
  simp [setResults, resList, mboxAt_setRes, regs5_toList]

/-- Settles O35: one micro-step, whose budget narrows without loss where it fits. -/
theorem buildParamsRuns : Obligations.BuildParamsRuns := by
  intro mf pd adj s hready hmode hclk hfits
  refine ⟨_, sequenced_started hready (budgetChecks_pass hmode hclk hfits) (fun s => s) _,
    start_accepted (keepsRunning_cons _ (by simp) (by simp)) s, ?_⟩
  rintro answer u w rfl rfl
  obtain ⟨hlp, hhp, hxtal, hpll, hmodem, hregdma, htotal⟩ := of_decide_eq_true hfits
  have hrun : sequencerStep answer (start [.buildParams mf pd adj, .finish .budget] s) =
      finishOp .budget (doBuildParams mf pd adj (opened s)) := by
    rw [start_eq_opened, sequencerStep_sleepStep (opened_running hready) rfl]; rfl
  obtain ⟨hreleased, hended⟩ := finishOp_ended .budget (s := s) (v := doBuildParams mf pd adj (opened s)) rfl rfl
  have hres := resList_finishOp_budget (s := s) (v := doBuildParams mf pd adj (opened s)) rfl rfl
  have hstate := finishOp_eq_of_sleepFields .budget (s := s) (v := doBuildParams mf pd adj (opened s)) rfl
  have hslp := finishOp_slp .budget (doBuildParams mf pd adj (opened s))
  rw [hrun, hslp]
  refine ⟨?_, narrowField_toNat hlp, narrowField_toNat hhp, narrowField_toNat hxtal, narrowField_toNat hpll,
    narrowField_toNat hmodem, narrowField_toNat hregdma, narrowField_toNat htotal, hres, hreleased, hended⟩
  refine hstate.trans ?_
  simp [doBuildParams, hpModeParams, lpModeParams, targetsSleep, lpSleep, pmtAt, opened]

/-! ### The order of the sleep ops -/

/-- Settles O38: the one check of each op fails. -/
theorem sleepOrderRefusals : Obligations.SleepOrderRefusals := by
  refine ⟨fun s hready hstate => ?_, fun deep wk rj s hready horder => ?_⟩
  · refine ⟨_, sequenced_refused hready ?_ (fun s => s) _, endOp_refusedWith _ .seqOrder s⟩
    rw [decide_eq_false hstate]; rfl
  · have hcheck : (decide (s.slp.state = .paramsBuilt) && s.slp.programmed) = false := by
      rw [Bool.and_eq_false_iff, decide_eq_false_iff_not]; exact horder
    refine ⟨_, sequenced_refused hready ?_ (fun s => s) _, endOp_refusedWith _ .seqOrder s⟩
    rw [hcheck]; rfl

/-! ### PROGRAM -/

/-- Settles O37: the op is its body and its end. -/
theorem programRuns : Obligations.ProgramRuns := by
  intro s hready hbuilt
  refine ⟨_, sequenced_started hready (by rw [decide_eq_true hbuilt]; rfl) (fun s => s) _,
    start_accepted (keepsRunning_cons _ (by simp) (by simp)) s, ?_⟩
  rintro answers u hlen rfl
  have hrun : runSequencer answers (start [.program, .finish .plain] s) = finishOp .plain (afterProgram (opened s)) := by
    rw [start_eq_opened, runSequencer_program (opened_running hready) hlen]; rfl
  rw [hrun]
  exact ⟨finishOp_eq_of_sleepFields .plain (s := s) (v := afterProgram (opened s)) rfl, finishOp_plain rfl rfl⟩

/-! ### The REGDMA toggles -/

/-- A toggle with its write: one micro-step that writes, sets the flag and ends the op (R133, R134). -/
theorem regdmaWrite_runs (on : Bool) {s : State} (hready : Ready s) (answer : Bool) {u : State}
    (hu : u = sequencerStep answer (start [.regdmaWrite on, .finish .plain] s)) :
    u = { s with
        mbox := u.mbox, seq := u.seq, slp := { s.slp with regdmaEnabled := on },
        trace := s.trace ++ [.w .regdmaBackupEn (bit on)] } ∧
      Released s.env.picked u ∧ OpEndedPlain s.env.picked .ok s u := by
  have hrun : u = finishOp .plain (doRegdmaWrite on (opened s)) := by
    rw [hu, start_eq_opened, sequencerStep_sleepStep (opened_running hready) rfl]; rfl
  rw [hrun]
  exact ⟨finishOp_eq_of_sleepFields .plain (s := s) (v := doRegdmaWrite on (opened s)) rfl, finishOp_plain rfl rfl⟩

theorem exec_regdmaEn {s : State} (hready : Ready s) : exec .regdmaEn s =
    .next (start (if s.slp.regdmaEnabled then [.finish .plain] else [.regdmaWrite true, .finish .plain]) s) :=
  sequenced_started hready (checks := []) rfl (fun s => s) _

theorem exec_regdmaDis {s : State} (hready : Ready s) : exec .regdmaDis s =
    .next (start (if s.slp.regdmaEnabled then [.regdmaWrite false, .finish .plain] else [.finish .plain]) s) :=
  sequenced_started hready (checks := []) rfl (fun s => s) _

/-- Settles O39: the script is the write and the end, or the end alone. -/
theorem regdmaEnRuns : Obligations.RegdmaEnRuns := by
  refine ⟨decode_encode_anyArg (i := .regdmaEn) (fun _ _ _ => rfl), rfl, fun s hready => ⟨fun hoff => ?_, fun hon => ?_⟩⟩
  · refine ⟨_, exec_regdmaEn hready, ?_⟩
    rw [hoff]
    exact ⟨start_accepted (keepsRunning_cons _ (by simp) (by simp)) s, fun answer u => regdmaWrite_runs true hready answer⟩
  · refine ⟨_, exec_regdmaEn hready, ?_⟩
    rw [hon]
    exact start_finish_plain s

/-- Settles O40: as REGDMA_EN, with the flag the other way. -/
theorem regdmaDisRuns : Obligations.RegdmaDisRuns := by
  refine ⟨decode_encode_anyArg (i := .regdmaDis) (fun _ _ _ => rfl), rfl, fun s hready => ⟨fun hon => ?_, fun hoff => ?_⟩⟩
  · refine ⟨_, exec_regdmaDis hready, ?_⟩
    rw [hon]
    exact ⟨start_accepted (keepsRunning_cons _ (by simp) (by simp)) s, fun answer u => regdmaWrite_runs false hready answer⟩
  · refine ⟨_, exec_regdmaDis hready, ?_⟩
    rw [hoff]
    exact start_finish_plain s

/-! ### CFG_PWR_MODE_DEFAULTS -/

theorem modeIndexOk_eq_false {cfg : Cfg} {k : BitVec 3} (h : 4 < k.toNat ∨ k = 1 ∧ cfg.hasModemMode = false) :
    modeIndexOk cfg k.toNat = false := by
  obtain hbig | ⟨rfl, hmodem⟩ := h
  · simp [modeIndexOk, hbig]
  · simp [modeIndexOk, hmodem]

theorem modeIndexOk_eq_true {cfg : Cfg} {k : BitVec 3} (hk : k.toNat < 5) (hmodem : k = 1 → cfg.hasModemMode = true) :
    modeIndexOk cfg k.toNat = true := by
  simp only [modeIndexOk, Bool.and_eq_true, Bool.or_eq_true, decide_eq_true_eq]
  refine ⟨Nat.le_of_lt_succ hk, ?_⟩
  by_cases hone : k = 1
  · exact .inr (hmodem hone)
  · exact .inl fun h => hone (BitVec.eq_of_toNat_eq h)

/-- An op that ends `OK` with a ModeParams record: nothing but its mailbox has changed (R136). -/
theorem endOp_setResMode (c : Core) (p : ModeParams) (s : State) :
    SameButMailboxes s (endOp c .ok (setResMode c p s)) ∧ OpEnded c .ok s (endOp c .ok (setResMode c p s)) ∧
      resList (endOp c .ok (setResMode c p s)) c = [p.pwr, p.ckg, p.ana, p.pad, p.ret] := by
  refine ⟨rfl, ⟨fun d hd => ?_, ?_⟩, ?_⟩
  · simp [mboxAt_endOp_ne hd, setResMode, mboxAt_setRes, hd]
  · simp [EndedWith, setResMode, mboxAt_setRes]
  · simp [resList, setResMode, mboxAt_setRes, regs5_toList]

theorem exec_cfgPwrModeDefaults_refused {k : BitVec 3} {s : State} (hrun : s.fault.halted = false)
    (hbad : modeIndexOk s.cfg k.toNat = false) :
    exec (.cfgPwrModeDefaults k) s = .next (endOp s.env.picked .badMode s) := by
  rw [exec, execCfgPwrModeDefaults, hbad, immediate_refused hrun rfl]

theorem exec_cfgPwrModeDefaults {k : BitVec 3} {s : State} (hrun : s.fault.halted = false)
    (hok : modeIndexOk s.cfg k.toNat = true) {p : ModeParams} (hp : s.cfg.pmtDefault[k.toNat]? = some p) :
    exec (.cfgPwrModeDefaults k) s = .next (endOp s.env.picked .ok (setResMode s.env.picked p s)) := by
  rw [exec, execCfgPwrModeDefaults, hok, immediate_runs hrun rfl, hp]; rfl

/-- Settles O48: the mode check fails, or the body is one `setResMode` of the default record. -/
theorem cfgPwrModeDefaultsRuns : Obligations.CfgPwrModeDefaultsRuns := by
  refine ⟨fun k => decode_encode_anyArg (i := .cfgPwrModeDefaults k) (fun _ _ _ => rfl), fun _ => rfl, fun k s hrun => ?_⟩
  obtain ⟨t, ht⟩ := exec_total (.cfgPwrModeDefaults k) s
  refine ⟨t, ht, fun hbad => ?_, fun p hp hmodem => ?_⟩
  · cases ht.symm.trans (exec_cfgPwrModeDefaults_refused hrun (modeIndexOk_eq_false hbad))
    exact endOp_refusedWith _ .badMode s
  · have hk : k.toNat < 5 := (Vector.getElem?_eq_some_iff.1 hp).1
    cases ht.symm.trans (exec_cfgPwrModeDefaults hrun (modeIndexOk_eq_true hk hmodem) hp)
    exact endOp_setResMode _ p s

end Sys2Proof.Machine
end

section
/-! The run of ENTER_SLEEP (42_sleep.md R135): the switch to the crystal, the parameters at its frequency, PROGRAM, the handshake,
and the restore of the saved configuration, to its end or to the timeout of its calibration. -/

namespace Sys2Proof.Machine

/-! ### `set_config` with anything behind it -/

theorem RunsTo.trans {a : Bool} {s t u : State} (h : RunsTo a s t) (h' : RunsTo a t u) : RunsTo a s u := by
  obtain ⟨m, rfl⟩ := h
  obtain ⟨n, rfl⟩ := h'
  exact ⟨m + 1 + n, by rw [← runSequencer_append, List.replicate_append_replicate]; rfl⟩

/-- `set_config(k)` with its polls answered 1 runs to `switched` (40_clocktree.md R90). -/
theorem RunsTo.setConfig {s : State} (hs : Running s) (k : ClockConfig) (rest : List Micro) :
    RunsTo true (advance (.setConfig k :: rest) s) (advance rest (switched s k)) := by
  have hleft : Running (left s k) := (left_sameOps s k).running hs
  have hbrought : Running (broughtUp (left s k) k) := (broughtUp_sameOps _ k).running hleft
  have hend : RunsTo true
      (advance (.apply k :: .stepFive s.clk.cur.freqMhz k.freqMhz :: rest) (broughtUp (left s k) k))
      (advance rest (switched s k)) :=
    RunsTo.apply hbrought (RunsTo.body ((applied_sameOps k _).running hbrought) rfl (.inl rfl))
  refine RunsTo.leave hs ?_
  unfold entryScript
  cases hk : k.source with
  | pll q => exact RunsTo.bringUp hleft hend
  | _ =>
    rw [broughtUp_of_noPll (by simp [hk])] at hend
    exact hend

/-- The restore is `set_config` of the saved configuration (R135). -/
theorem RunsTo.restoreSaved {s u : State} (hs : Running s) {k : ClockConfig} (hk : s.slp.savedCfg = k) {rest : List Micro}
    (h : RunsTo true (advance (.setConfig k :: rest) s) u) : RunsTo true (advance (.restoreSaved :: rest) s) u := by
  subst hk
  exact .of_step_eq (sequencerStep_restoreSaved hs rest true) h

/-- `set_config(k)` up to the first poll of its calibration (40_clocktree.md R90, 41_pll.md R103). -/
theorem RunsTo.firstPoll {s : State} (hs : Running s) {k : ClockConfig} {q : PllId} (hk : k.source = .pll q)
    (hreconf : needsReconf s k = true) (rest : List Micro) :
    RunsTo true (advance (.setConfig k :: rest) s)
      (advance (.calPoll q (some s.clk.cur.freqMhz) :: .calStop q k.sourceFreqMhz :: .apply k ::
        .stepFive s.clk.cur.freqMhz k.freqMhz :: rest) (calibrating (left s k) q k.sourceFreqMhz)) := by
  have hleft : Running (left s k) := (left_sameOps s k).running hs
  have hscript := bringUpScript_reconf hk ((needsReconf_left s k).trans hreconf) s.clk.cur.freqMhz
  refine RunsTo.leave hs ?_
  unfold entryScript
  simp only [hk]
  refine RunsTo.control hleft (l := bringUpScript (left s k) k s.clk.cur.freqMhz) rfl
    (resolvesIn_bringUpScript true 2 _ k k _ _) ?_ ?_
  · obtain hnil | ⟨m, ms, hcons, hm⟩ := bringUpScript_cons (left s k) k s.clk.cur.freqMhz
    · rw [hnil]; simp
    · rw [hcons]
      rintro x ⟨⟩
      exact ne_unmarked_of_plain (hm true)
  · have hplain := calPrelude_plain true (left s k) q k.sourceFreqMhz
    obtain ⟨ms, hms⟩ : ∃ ms, calPrelude (left s k) q k.sourceFreqMhz = ms ++ [.calStart q] :=
      ⟨_, (List.append_assoc _ [_] [_]).symm⟩
    rw [hscript, calibrating, hms, List.append_assoc, List.append_assoc, bodies_append]
    rw [hms] at hplain
    refine RunsTo.bodies (fun m hm => hplain m (List.mem_append_left _ hm)) hleft ?_
    exact RunsTo.body ((bodies_sameOps true ms _).running hleft) rfl (.inl rfl)

/-- Every poll of the calibration answers 0: exactly the allowed number of them (41_pll.md R103). -/
theorem runSequencer_pollsSpent {s : State} (hs : Running s) {k : ClockConfig} {q : PllId} (hq : q.toNat < 8)
    (hpolls : 1 ≤ s.cfg.calTimeoutPolls) (o : Option Word) (rest : List Micro) :
    runSequencer (List.replicate s.cfg.calTimeoutPolls false)
        (advance (.calPoll q o :: rest) (calibrating (left s k) q k.sourceFreqMhz)) =
      calTimeout q o (pollsSpent s k q) := by
  obtain ⟨n, hn⟩ : ∃ n, s.cfg.calTimeoutPolls = n + 1 := ⟨_, (Nat.succ_pred_eq_of_pos hpolls).symm⟩
  have hcal : Running (calibrating (left s k) q k.sourceFreqMhz) :=
    ((left_sameOps s k).trans (calibrating_sameOps _ q _)).running hs
  have hfirst : (pllAt (calibrating (left s k) q k.sourceFreqMhz) q).calPollsLeft = n + 1 := by
    rw [pllAt_calibrating hq, if_pos rfl, (left_sameOps s k).cfg]
    exact hn
  have hlast : (pllAt (polledZero q n (calibrating (left s k) q k.sourceFreqMhz)) q).calPollsLeft = 1 := by
    rw [pllAt_polledZero, if_pos ⟨rfl, hq⟩]
    simp [hfirst]
  rw [hn, List.replicate_succ', runSequencer_append, runSequencer_pollsAgain hq o rest hcal (by omega), runSequencer_cons,
    sequencerStep_pollLast ((polledZero_sameOps q n _).running hcal) hq hlast, pollsSpent, hn, polledZero, polledZero,
    Function.iterate_succ_apply']
  rfl

/-! ### On the crystal -/

/-- The acceptance effect of ENTER_SLEEP: the saved configuration, and at most the discard of built parameters (R121, R135). -/
theorem saveConfig_eq (s : State) : ∃ state programmed,
    saveConfig s = setSlp { s.slp with state := state, programmed := programmed, savedCfg := s.clk.cur } s := by
  unfold saveConfig
  obtain ⟨-, hdiscard⟩ | hsame := discardParams_eq s
  · rw [hdiscard]; exact ⟨_, _, rfl⟩
  · rw [hsame]; exact ⟨_, _, rfl⟩

/-- The state of ENTER_SLEEP after its switch to the crystal. -/
def onCrystal (s : State) : State := switched (opened (saveConfig s)) (xtalNative s.cfg)

/-- What ENTER_SLEEP from `s` has made of the clock tree, from its switch to the crystal to its restore. -/
structure OnCrystal (s w : State) : Prop where
  cur : w.clk.cur = xtalNative s.cfg
  state : w.clk.state = .onCrystal
  mux : w.clk.hw.mux = .crystal
  cpuDiv : w.clk.hw.cpuDiv = { int := 1, num := 0, den := 0 }
  busDivs : ∀ b ∈ chain s.cfg, busDiv w.clk.hw.busDiv b = busDiv (busDivs s.cfg (xtalNative s.cfg)) b
  ticks : w.clk.ticksPerUs = s.cfg.xtalFreqMhz
  counter : w.clk.cycleCounter = rescale s.clk.cycleCounter s.clk.cur.freqMhz s.cfg.xtalFreqMhz
  source : ∀ p, s.clk.cur.source = .pll p → pllAt w p = if (pllAt s p).consumerCount = 0 then
    { pllAt s p with enabled := false, configuredFreqMhz := 0, calState := .calIdle } else pllAt s p
  others : ∀ j, s.clk.cur.source ≠ .pll j → pllAt w j = pllAt s j
  last : w.lastCalPll = s.lastCalPll
  freq : w.curPllFreqMhz =
    if s.clk.cur.source = .pll s.lastCalPll ∧ (pllAt s s.lastCalPll).consumerCount = 0 then 0 else s.curPllFreqMhz
  cfg : w.cfg = s.cfg
  fault : w.fault = s.fault
  env : w.env = s.env

theorem onCrystal_onCrystal (s : State) : OnCrystal s (onCrystal s) := by
  obtain ⟨state, programmed, hsave⟩ := saveConfig_eq s
  unfold onCrystal
  rw [hsave]
  generalize hw : opened (setSlp { s.slp with state := state, programmed := programmed, savedCfg := s.clk.cur } s) = w
  have hcfg : w.cfg = s.cfg := by rw [← hw]; rfl
  have hclk : w.clk = s.clk := by rw [← hw]; rfl
  have hplls (j : PllId) : pllAt w j = pllAt s j := by rw [← hw]; rfl
  have hlast : w.lastCalPll = s.lastCalPll := by rw [← hw]; rfl
  have hfreq : w.curPllFreqMhz = s.curPllFreqMhz := by rw [← hw]; rfl
  have hfault : w.fault = s.fault := by rw [← hw]; rfl
  have henv : w.env = s.env := by rw [← hw]; rfl
  have hops := switched_sameOps w (xtalNative s.cfg)
  have hno (j : PllId) : (xtalNative s.cfg).source ≠ .pll j := nofun
  obtain ⟨hcur, hstate, hmux, hcpu, hbus, hticks, hcounter⟩ := switched_clk w (xtalNative s.cfg)
  obtain ⟨-, hsame⟩ := switched_curPll w (xtalNative s.cfg)
  obtain ⟨hlastSame, hfreqSame⟩ := hsame rfl
  rw [hcfg] at hbus
  rw [hclk] at hcounter
  refine ⟨hcur, hstate, hmux, hcpu, hbus, hticks, hcounter, fun p hp => ?_, fun j hj => ?_, hlastSame.trans hlast, ?_,
    hops.cfg.trans hcfg, hops.fault.trans hfault, hops.env.trans henv⟩
  · rw [pllAt_switched, pllAt_broughtUp_ne (hno p), pllAt_left_source (by rw [hclk]; exact hp) (hno p), hplls]
  · rw [pllAt_switched, pllAt_broughtUp_ne (hno j), pllAt_left_other (by rw [hclk]; exact hj), hplls]
  · rw [hfreqSame, hclk, hlast, hplls, hfreq]
    simp only [leftPll_eq_some, hno, ne_eq, not_false_eq_true, and_true]

/-- Nothing between the two switches touches the clock tree or the PLLs. -/
theorem OnCrystal.of_same {s w v : State} (h : OnCrystal s w) (hclk : v.clk = w.clk) (hplls : v.plls = w.plls)
    (hlast : v.lastCalPll = w.lastCalPll) (hfreq : v.curPllFreqMhz = w.curPllFreqMhz) (hcfg : v.cfg = w.cfg)
    (hfault : v.fault = w.fault) (henv : v.env = w.env) : OnCrystal s v := by
  have hpll (j : PllId) : pllAt v j = pllAt w j := by unfold pllAt; rw [hplls]
  constructor
  case source => intro p hp; rw [hpll]; exact h.source p hp
  case others => intro j hj; rw [hpll]; exact h.others j hj
  case cur => rw [hclk]; exact h.cur
  case state => rw [hclk]; exact h.state
  case mux => rw [hclk]; exact h.mux
  case cpuDiv => rw [hclk]; exact h.cpuDiv
  case busDivs => rw [hclk]; exact h.busDivs
  case ticks => rw [hclk]; exact h.ticks
  case counter => rw [hclk]; exact h.counter
  case last => exact hlast.trans h.last
  case freq => exact hfreq.trans h.freq
  case cfg => exact hcfg.trans h.cfg
  case fault => exact hfault.trans h.fault
  case env => exact henv.trans h.env

theorem OnCrystal.direct {s w : State} (h : OnCrystal s w) (k : ClockConfig) : goesThroughCrystal w k = false := by
  rw [goesThroughCrystal, h.cur]; rfl

theorem OnCrystal.left_eq {s w : State} (h : OnCrystal s w) (k : ClockConfig) : left w k = w := by
  simp [left, onBase, h.direct k, leftPll_eq_none (h.direct k)]

/-- The restore calibrates the source again exactly where the switch to the crystal, or someone before it, has left it with
another frequency. -/
theorem OnCrystal.needsReconf_iff {s w : State} (h : OnCrystal s w) {p : PllId} (hp : s.clk.cur.source = .pll p) :
    needsReconf w s.clk.cur = true ↔ recalibrates s p := by
  rw [Machine.needsReconf_iff hp, h.source p hp, recalibrates]
  split <;> rfl

theorem OnCrystal.restored {s w : State} (h : OnCrystal s w) (hheld : sourceHeld s.clk.cur = true) :
    ClockRestored s (switched w s.clk.cur) := by
  have hops := switched_sameOps w s.clk.cur
  obtain ⟨hcur, hstate, hmux, hcpu, hbus, hticks, hcounter⟩ := switched_clk w s.clk.cur
  obtain ⟨hcalibrated, hsame⟩ := switched_curPll w s.clk.cur
  have hnone : leftPll w.clk.cur s.clk.cur = none := leftPll_eq_none (h.direct _)
  rw [h.cfg] at hbus
  rw [h.counter, h.cur] at hcounter
  rw [hnone, h.last, h.freq] at hsame
  simp only [reduceCtorEq, false_and, if_false] at hsame
  refine ⟨hcur, hstate, hmux, hcpu, hbus, hticks, hcounter, fun p hp => ⟨fun hrec => ?_, fun hrec => ?_⟩, fun hno => ?_,
    fun j hj => ?_, hops.cfg.trans h.cfg, hops.fault.trans h.fault, hops.env.trans h.env⟩
  · have hq : p.toNat < 8 := by simpa [sourceHeld, hp] using hheld
    have hreconf := (h.needsReconf_iff hp).2 hrec
    refine ⟨?_, hcalibrated p hp hreconf⟩
    rw [pllAt_switched, h.left_eq, pllAt_broughtUp hp hq, if_pos hreconf, h.source p hp, h.cfg]
    split <;> rfl
  · have hq : p.toNat < 8 := by simpa [sourceHeld, hp] using hheld
    have hreconf := mt (h.needsReconf_iff hp).1 hrec
    obtain ⟨hlast, hfreq⟩ := hsame (Bool.eq_false_of_not_eq_true hreconf)
    refine ⟨?_, hfreq.trans ?_, hlast⟩
    · rw [pllAt_switched, h.left_eq, pllAt_broughtUp hp hq, if_neg hreconf, h.source p hp]
      split <;> rfl
    · by_cases hl : s.lastCalPll = p
      · simp [hp, hl]
      · simp [hp, hl, Ne.symm hl]
  · have hreconf : needsReconf w s.clk.cur = false := by
      rw [needsReconf]
      split
      next q hq => exact absurd hq (hno q)
      next => rfl
    obtain ⟨hlast, hfreq⟩ := hsame hreconf
    exact ⟨hfreq.trans (if_neg fun h => hno _ h.1), hlast⟩
  · rw [pllAt_switched, h.left_eq, pllAt_broughtUp_ne hj, h.others j hj]

/-! ### Down to the sleep start -/

/-- The sleep state of ENTER_SLEEP after PROGRAM (R122, R129, R135). -/
def programmedSlp (mf pd : Word) (b : SleepBudget) (s : State) : SleepSeq :=
  { s.slp with
    state := .paramsBuilt, programmed := true, savedCfg := s.clk.cur, hwwait := b,
    params := { hp := hpModeParams s.slp mf, lp := lpModeParams s.slp mf, modeFlags := mf, pdFlags := pd, budget := b } }

/-- The state of ENTER_SLEEP after PROGRAM. -/
def programmedState (mf pd adj : Word) (s : State) : State := afterProgram (doBuildParams mf pd adj (onCrystal s))

/-- The budget of ENTER_SLEEP, at the crystal's frequency (R135). -/
def crystalBudget (mf pd adj : Word) (s : State) : SleepBudget :=
  narrowBudget (wideBudget s.cfg s.slp.lpClkFreqHz s.cfg.xtalFreqMhz mf pd adj)

/-- What the switch to the crystal leaves of the op and the sleep state, and its events. -/
theorem onCrystal_kept (s : State) :
    (onCrystal s).mbox = (opened s).mbox ∧ (onCrystal s).seq = (opened s).seq ∧
      (onCrystal s).trace = s.trace ++ switchEvents s (xtalNative s.cfg) ∧
      ∃ state programmed, (onCrystal s).slp =
        { s.slp with state := state, programmed := programmed, savedCfg := s.clk.cur } := by
  obtain ⟨state, programmed, hsave⟩ := saveConfig_eq s
  unfold onCrystal
  rw [hsave]
  have hops := switched_sameOps (opened (setSlp
    { s.slp with state := state, programmed := programmed, savedCfg := s.clk.cur } s)) (xtalNative s.cfg)
  exact ⟨hops.mbox, hops.seq, switched_trace _ _, state, programmed, hops.slp⟩

theorem programmedState_slp (mf pd adj : Word) (s : State) :
    (programmedState mf pd adj s).slp = programmedSlp mf pd (crystalBudget mf pd adj s) s := by
  obtain ⟨-, -, -, state, programmed, hslp⟩ := onCrystal_kept s
  have hcrystal := onCrystal_onCrystal s
  simp only [programmedState, afterProgram, doBuildParams, setSlp, hslp, hcrystal.cfg, hcrystal.cur]
  rfl

theorem programmedState_trace (mf pd adj : Word) (s : State) :
    (programmedState mf pd adj s).trace = s.trace ++ switchEvents s (xtalNative s.cfg) ++
      programEvents (programmedSlp mf pd (crystalBudget mf pd adj s) s) s.cfg.hasModemMode := by
  obtain ⟨-, -, htrace, state, programmed, hslp⟩ := onCrystal_kept s
  have hcrystal := onCrystal_onCrystal s
  simp only [programmedState, afterProgram, doBuildParams, setSlp, hslp, hcrystal.cfg, hcrystal.cur, htrace]
  rfl

theorem programmedState_onCrystal (mf pd adj : Word) (s : State) : OnCrystal s (programmedState mf pd adj s) :=
  (onCrystal_onCrystal s).of_same rfl rfl rfl rfl rfl rfl rfl

theorem programmedState_running {s : State} (h : Ready s) (mf pd adj : Word) : Running (programmedState mf pd adj s) := by
  obtain ⟨-, hseq, -⟩ := onCrystal_kept s
  refine ⟨?_, ?_⟩
  · rw [show (programmedState mf pd adj s).seq = (onCrystal s).seq from rfl, hseq]; rfl
  · rw [(programmedState_onCrystal mf pd adj s).fault]; exact h.1

/-- What comes after the handshake of ENTER_SLEEP (R135). -/
def restoreScript : List Micro := [.restoreSaved, .finish .sleepResult]

theorem RunsTo.of_answers {s t : State} (n : Nat) (h : runSequencer (List.replicate (n + 1) true) s = t) : RunsTo true s t :=
  ⟨n, h⟩

/-- The run of ENTER_SLEEP down to the sleep start, its reaction included. -/
theorem RunsTo.sleepStart {s : State} (h : Ready s) (deep : Bool) (wk rj mf pd adj : Word) :
    RunsTo true (start (enterSleepScript s.cfg deep wk rj mf pd adj) (saveConfig s))
      (advance (handshakeTail restoreScript)
        (sleepBodies (handshakeSteps deep wk rj) (programmedState mf pd adj s))) := by
  obtain ⟨state, programmed, hsave⟩ := saveConfig_eq s
  have hopened : Running (opened (saveConfig s)) := by rw [hsave]; exact opened_running h
  have hcrystal : Running (onCrystal s) := (switched_sameOps _ _).running hopened
  have hbuilt : Running (doBuildParams mf pd adj (onCrystal s)) := hcrystal
  rw [start_eq_opened]
  refine (RunsTo.setConfig hopened (xtalNative s.cfg) _).trans ?_
  refine RunsTo.trans (.of_answers 0 (sequencerStep_sleepStep hcrystal (m := .buildParams mf pd adj) rfl _ true)) ?_
  obtain ⟨n, hn⟩ : ∃ n, (programEvents (doBuildParams mf pd adj (onCrystal s)).slp
      (doBuildParams mf pd adj (onCrystal s)).cfg.hasModemMode).length = n + 1 := ⟨_, rfl⟩
  refine RunsTo.trans (.of_answers n (runSequencer_program hbuilt (by rw [hn, List.length_replicate]) _)) ?_
  exact .of_answers 4 (runSequencer_handshake deep wk rj (List.length_replicate ..) (programmedState_running h mf pd adj) _)

/-! ### The restore -/

/-- The state of ENTER_SLEEP at the end of its handshake, with sleep state `z` before the status poll that sees a bit. -/
def sleepEnded (deep : Bool) (wk rj mf pd adj : Word) (z : SleepSeq) (s : State) : State :=
  handshakeEnded 0 (handshaken deep wk rj z (programmedState mf pd adj s))

/-- The sleep state after `enter_body` (R130). -/
def endedSlp (z : SleepSeq) : SleepSeq := { z with state := .idle, programmed := false }

/-- The op of `s` at its restore, with result `r` and sleep state `z`. -/
structure AtRestore (s : State) (r : SleepResult) (z : SleepSeq) (w : State) : Prop where
  clock : OnCrystal s w
  slp : w.slp = z
  saved : z.savedCfg = s.clk.cur
  mbox : w.mbox = (opened s).mbox
  seq : w.seq = { busy := true, owner := s.env.picked, script := [], result := some r }

theorem sleepEnded_atRestore (deep : Bool) (wk rj mf pd adj : Word) {z : SleepSeq} {s : State} {r : SleepResult}
    (hsaved : z.savedCfg = s.clk.cur) (hr : pollResult z = r) :
    AtRestore s r (endedSlp z) (sleepEnded deep wk rj mf pd adj z s) := by
  obtain ⟨hmbox, hseq, -⟩ := onCrystal_kept s
  refine ⟨(programmedState_onCrystal mf pd adj s).of_same rfl rfl rfl rfl rfl rfl rfl, rfl, hsaved, hmbox, ?_⟩
  have hresult : (sleepEnded deep wk rj mf pd adj z s).seq = { (onCrystal s).seq with result := some (pollResult z) } := rfl
  rw [hresult, hseq, hr]; rfl

theorem sleepEnded_trace (deep : Bool) (wk rj mf pd adj : Word) {z : SleepSeq} {s : State} {w : Word}
    (hword : intStatusWord z = w) :
    (sleepEnded deep wk rj mf pd adj z s).trace = s.trace ++ switchEvents s (xtalNative s.cfg) ++
      programEvents (programmedSlp mf pd (crystalBudget mf pd adj s) s) s.cfg.hasModemMode ++ handshakeWrites deep wk rj ++
      [.r .intStatus w, .r .auxIdle 1] := by
  rw [← programmedState_trace, ← hword]
  simp [sleepEnded, handshakeEnded, handshaken]

theorem AtRestore.running {s w : State} {r : SleepResult} {z : SleepSeq} (h : AtRestore s r z w) (hready : Ready s) :
    Running w := by
  refine ⟨by rw [h.seq], ?_⟩
  rw [h.clock.fault]; exact hready.1

/-- The restore of the saved configuration, and the end of the op (R135). -/
theorem AtRestore.restores {s w : State} {r : SleepResult} {z : SleepSeq} (h : AtRestore s r z w) (hready : Ready s)
    (hheld : sourceHeld s.clk.cur = true) :
    ∃ u, RunsTo true (advance restoreScript w) u ∧ u.trace = w.trace ++ switchEvents w s.clk.cur ∧
      Released s.env.picked u ∧ OpEnded s.env.picked .ok s u ∧
      resList u s.env.picked = sleepResultWord r :: (resList s s.env.picked).tail ∧ u.slp = z ∧ ClockRestored s u := by
  have hops := switched_sameOps w s.clk.cur
  have hrunning := h.running hready
  obtain ⟨hreleased, hended, hres⟩ := finishOp_sleepResult (hops.mbox.trans h.mbox) (hops.seq.trans h.seq)
  refine ⟨finishOp .sleepResult (switched w s.clk.cur), ?_, ?_, hreleased, hended, hres, ?_, ?_⟩
  · exact RunsTo.restoreSaved hrunning ((congrArg _ h.slp).trans h.saved) (RunsTo.setConfig hrunning s.clk.cur _)
  · rw [finishOp_trace, switched_trace]
  · rw [finishOp_slp, hops.slp, h.slp]
  · have hrestored := h.clock.restored hheld
    unfold ClockRestored at hrestored ⊢
    simpa only [finishOp_clk, finishOp_pllAt, finishOp_curPllFreqMhz, finishOp_lastCalPll, finishOp_cfg, finishOp_fault,
      finishOp_env] using hrestored

/-! ### ENTER_SLEEP turned back -/

theorem exec_enterSleep {s : State} (hready : Ready s) (deep : Bool) (wk rj : Word) {mf pd adj : Word}
    (hmode : modeFlagsOk s.cfg mf = true) (hclk : 1 ≤ s.slp.lpClkFreqHz.toNat)
    (hfits : budgetFits (wideBudget s.cfg s.slp.lpClkFreqHz s.cfg.xtalFreqMhz mf pd adj) = true) :
    exec (.enterSleep deep wk rj mf pd adj) s =
      .next (start (enterSleepScript s.cfg deep wk rj mf pd adj) (saveConfig s)) :=
  (exec_enterSleep_eq ..).trans (sequenced_started hready (budgetChecks_pass hmode hclk hfits) saveConfig _)

theorem enterSleep_accepted (deep : Bool) (wk rj mf pd adj : Word) (s : State) :
    Accepted s.env.picked s (start (enterSleepScript s.cfg deep wk rj mf pd adj) (saveConfig s)) := by
  obtain ⟨state, programmed, hsave⟩ := saveConfig_eq s
  rw [hsave]
  exact start_accepted (keepsRunning_cons _ (by simp) (by simp)) _

/-- The run of ENTER_SLEEP that is turned back, down to the restore. -/
theorem RunsTo.turnedBack {s : State} (h : Ready s) (deep : Bool) (wk : Word) {rj : Word} (mf pd adj : Word)
    (hline : s.env.rejectLines &&& rj ≠ 0) :
    RunsTo true (start (enterSleepScript s.cfg deep wk rj mf pd adj) (saveConfig s))
      (advance restoreScript (sleepEnded deep wk rj mf pd adj
        (Machine.turnedBack deep wk rj (programmedSlp mf pd (crystalBudget mf pd adj s) s)) s)) := by
  have hrunning : Running (handshaken deep wk rj
      (Machine.turnedBack deep wk rj (programmedSlp mf pd (crystalBudget mf pd adj s) s)) (programmedState mf pd adj s)) :=
    programmedState_running h mf pd adj
  have hlines : (programmedState mf pd adj s).env.rejectLines &&& rj ≠ 0 := by
    rw [(programmedState_onCrystal mf pd adj s).env]; exact hline
  have hstart := RunsTo.sleepStart h deep wk rj mf pd adj
  rw [sleepBodies_handshake_rejected deep wk hlines, programmedState_slp] at hstart
  exact hstart.trans (.of_answers 2 (runSequencer_handshakeTail hrunning rfl 0 true true restoreScript))

/-- Settles O45: the run down to the restore, and the restore. -/
theorem enterSleepRejectedRestores : Obligations.EnterSleepRejectedRestores := by
  intro deep wk rj mf pd adj s b hcfg hready hmode hclk hfits hheld hline hb
  obtain rfl : b = crystalBudget mf pd adj s := hb
  obtain ⟨m, hm⟩ := RunsTo.turnedBack hready deep wk mf pd adj hline
  have hat := sleepEnded_atRestore deep wk rj mf pd adj (s := s) (r := .rejected)
    (z := turnedBack deep wk rj (programmedSlp mf pd (crystalBudget mf pd adj s) s)) rfl rfl
  obtain ⟨u, ⟨n, hn⟩, htrace, hreleased, hended, hres, hslp, hclock⟩ := hat.restores hready hheld
  refine ⟨_, exec_enterSleep hready deep wk rj hmode hclk hfits, enterSleep_accepted deep wk rj mf pd adj s, m + 1, n + 1, _,
    u, hm.symm, hat.clock.cur, ?_, hn.symm, htrace, hreleased, hended, hres, hslp, hclock⟩
  rw [hslp]
  exact sleepEnded_trace deep wk rj mf pd adj (intStatusWord_rejected rfl rfl)

/-! ### ENTER_SLEEP that sleeps -/

/-- The sleep state of ENTER_SLEEP asleep. -/
def asleepSlp (deep : Bool) (wk rj mf pd adj : Word) (s : State) : SleepSeq :=
  fallenAsleep deep wk rj (programmedSlp mf pd (crystalBudget mf pd adj s) s)

/-- ENTER_SLEEP asleep at its status poll. -/
def asleepState (deep : Bool) (wk rj mf pd adj : Word) (s : State) : State :=
  advance (handshakeTail restoreScript)
    (handshaken deep wk rj (asleepSlp deep wk rj mf pd adj s) (programmedState mf pd adj s))

theorem RunsTo.asleep {s : State} (h : Ready s) (deep : Bool) (wk : Word) {rj : Word} (mf pd adj : Word)
    (hline : s.env.rejectLines &&& rj = 0) :
    RunsTo true (start (enterSleepScript s.cfg deep wk rj mf pd adj) (saveConfig s))
      (asleepState deep wk rj mf pd adj s) := by
  have hlines : (programmedState mf pd adj s).env.rejectLines &&& rj = 0 := by
    rw [(programmedState_onCrystal mf pd adj s).env]; exact hline
  have hstart := RunsTo.sleepStart h deep wk rj mf pd adj
  rwa [sleepBodies_handshake_asleep deep wk hlines, programmedState_slp] at hstart

theorem asleepState_trace (deep : Bool) (wk rj mf pd adj : Word) (s : State) :
    (asleepState deep wk rj mf pd adj s).trace = s.trace ++ switchEvents s (xtalNative s.cfg) ++
      programEvents (programmedSlp mf pd (crystalBudget mf pd adj s) s) s.cfg.hasModemMode ++ handshakeWrites deep wk rj := by
  rw [← programmedState_trace]; rfl

/-- The wake, and the run from the status poll to the restore. -/
theorem runActions_wakesToRestore {s : State} (h : Ready s) (deep : Bool) {wk : Word} (rj mf pd adj : Word)
    (hline : s.env.wakeLines &&& wk ≠ 0) :
    runActions (wakeSchedule (crystalBudget mf pd adj s) ++ List.replicate 3 (.sequencer true))
        (asleepState deep wk rj mf pd adj s) =
      .next (advance restoreScript
        (sleepEnded deep wk rj mf pd adj (wokenSlp (asleepSlp deep wk rj mf pd adj s)) s)) := by
  have hlines : (asleepState deep wk rj mf pd adj s).env.wakeLines &&& wk ≠ 0 := by
    rw [show (asleepState deep wk rj mf pd adj s).env = (programmedState mf pd adj s).env from rfl,
      (programmedState_onCrystal mf pd adj s).env]
    exact hline
  have hwoken : runActions (wakeSchedule (crystalBudget mf pd adj s)) (asleepState deep wk rj mf pd adj s) =
      .next (advance (handshakeTail restoreScript)
        (handshaken deep wk rj (wokenSlp (asleepSlp deep wk rj mf pd adj s)) (programmedState mf pd adj s))) :=
    runActions_wakeSchedule (s := asleepState deep wk rj mf pd adj s) rfl rfl hlines
  rw [runActions_append hwoken, runActions_replicate_sequencer]
  have hrunning : Running (handshaken deep wk rj (wokenSlp (asleepSlp deep wk rj mf pd adj s))
      (programmedState mf pd adj s)) := programmedState_running h mf pd adj
  exact congrArg Host.Outcome.next (runSequencer_handshakeTail hrunning rfl 0 true true restoreScript)

/-- Settles O46: the run down to the sleep start, the wake, and the restore. -/
theorem enterSleepWakesAndRestores : Obligations.EnterSleepWakesAndRestores := by
  intro deep wk rj mf pd adj s b hcfg hready hmode hclk hfits hheld hreject hwake hb
  obtain rfl : b = crystalBudget mf pd adj s := hb
  obtain ⟨m, hm⟩ := RunsTo.asleep hready deep wk mf pd adj hreject
  have hat := sleepEnded_atRestore deep wk rj mf pd adj (s := s) (r := .woken)
    (z := wokenSlp (asleepSlp deep wk rj mf pd adj s)) rfl rfl
  obtain ⟨u, ⟨n, hn⟩, htrace, hreleased, hended, hres, hslp, hclock⟩ := hat.restores hready hheld
  have hrun := runActions_wakesToRestore hready deep rj mf pd adj hwake
  refine ⟨_, exec_enterSleep hready deep wk rj hmode hclk hfits, enterSleep_accepted deep wk rj mf pd adj s, m + 1,
    3 + (n + 1), asleepState deep wk rj mf pd adj s, u, hm.symm, (programmedState_onCrystal mf pd adj s).cur, rfl, rfl, rfl,
    ?_, ?_, ?_, hreleased, hended, hres, hslp, hclock⟩
  · rw [hslp]; exact asleepState_trace deep wk rj mf pd adj s
  · rw [List.replicate_add, ← List.append_assoc, runActions_append hrun, runActions_replicate_sequencer, hn]
  · rw [htrace, sleepEnded_trace deep wk rj mf pd adj (intStatusWord_woken rfl rfl), asleepState_trace]
    rfl

/-! ### The restore that times out -/

theorem xtalFreqMhz_pos {cfg : Cfg} (h : cfgOk cfg = true) : 1 ≤ cfg.xtalFreqMhz.toNat := by
  simp only [cfgOk, Bool.and_eq_true, decide_eq_true_eq] at h
  obtain ⟨⟨⟨⟨⟨⟨⟨⟨⟨⟨hxtal, -⟩, -⟩, -⟩, -⟩, -⟩, -⟩, -⟩, -⟩, -⟩, -⟩ := h
  exact hxtal

/-- The op of `s` that ends in a timeout of `id` at state `v`: its mailbox and the sequencing (60_exceptions.md R156). -/
theorem calTimeout_some_ended {s v : State} {l : List Micro} {r : Option SleepResult} (hmbox : v.mbox = (opened s).mbox)
    (hseq : v.seq = { busy := true, owner := s.env.picked, script := l, result := r }) (id : PllId) (oldMhz : Word) :
    Released s.env.picked (calTimeout id (some oldMhz) v) ∧
      OpEndedPlain s.env.picked .calibrationTimeout s (calTimeout id (some oldMhz) v) := by
  have howner : (calFailed id oldMhz v).seq.owner = s.env.picked := by
    rw [show (calFailed id oldMhz v).seq = v.seq from rfl, hseq]
  rw [calTimeout_some, raiseFatal_owner, howner]
  refine release_endOp_ended (l := l) (r := r) ?_ ?_ _
  · rw [recordFault_mbox]; exact hmbox
  · rw [recordFault_seq]; exact hseq

/-- The restore of a PLL that the switch to the crystal has powered down, with every poll answered 0. -/
def restoreTimedOut (s w : State) (p : PllId) : State :=
  calTimeout p (some w.clk.cur.freqMhz) (pollsSpent w s.clk.cur p)

theorem OnCrystal.source_dropped {s w : State} (h : OnCrystal s w) {p : PllId} (hp : s.clk.cur.source = .pll p)
    (hcount : (pllAt s p).consumerCount = 0) :
    pllAt w p = { pllAt s p with enabled := false, configuredFreqMhz := 0, calState := .calIdle } := by
  rw [h.source p hp, if_pos hcount]

/-- Timed out, the clock tree is still the crystal's: the restore has applied nothing (40_clocktree.md R93). -/
theorem OnCrystal.restoreTimedOut_clk {s w : State} (h : OnCrystal s w) (hcfg : cfgOk s.cfg = true)
    (hrun : s.fault.halted = false) (p : PllId) : (restoreTimedOut s w p).clk = w.clk := by
  have hbase : onBase w s.clk.cur = w := by simp [onBase, h.direct]
  have hspent : (pollsSpent w s.clk.cur p).fault.halted = false := by
    rw [(pollsSpent_sameOps w s.clk.cur p).fault, h.fault]; exact hrun
  obtain ⟨-, hclk, -⟩ := calTimeout_some_fields p w.clk.cur.freqMhz (pollsSpent w s.clk.cur p) hspent
  have hticks : w.clk.cur.freqMhz = w.clk.ticksPerUs := by rw [h.ticks, h.cur]; rfl
  have hpos : 1 ≤ w.clk.cur.freqMhz.toNat := by rw [h.cur]; exact xtalFreqMhz_pos hcfg
  rw [restoreTimedOut, hclk, pollsSpent_clk, hbase, rescale_self hpos, hticks]

theorem OnCrystal.restoreTimedOut_plls {s w : State} (h : OnCrystal s w) {p : PllId} (hp : s.clk.cur.source = .pll p)
    (hq : p.toNat < 8) (hcount : (pllAt s p).consumerCount = 0) :
    pllAt (restoreTimedOut s w p) p =
        { pllAt s p with enabled := true, configuredFreqMhz := 0, calState := .calFailed, calPollsLeft := 0 } ∧
      OtherPllsSame p s (restoreTimedOut s w p) := by
  refine ⟨?_, fun j hj => ?_⟩
  · rw [restoreTimedOut, pllAt_calTimeout, if_pos ⟨rfl, hq⟩, pllAt_pollsSpent_target _ hp hq, h.source_dropped hp hcount]
  · have hother : s.clk.cur.source ≠ .pll j := by rw [hp]; rintro ⟨⟩; exact hj rfl
    rw [restoreTimedOut, pllAt_calTimeout, if_neg fun hj' => hj hj'.1, pllAt_pollsSpent_ne _ hj, h.left_eq,
      h.others j hother]

theorem OnCrystal.restoreTimedOut_curPll {s w : State} (h : OnCrystal s w) (hrun : s.fault.halted = false) {p : PllId}
    (hp : s.clk.cur.source = .pll p) :
    (restoreTimedOut s w p).lastCalPll = s.lastCalPll ∧
      (restoreTimedOut s w p).curPllFreqMhz = if s.lastCalPll = p then 0 else s.curPllFreqMhz := by
  have hspent : (pollsSpent w s.clk.cur p).fault.halted = false := by
    rw [(pollsSpent_sameOps w s.clk.cur p).fault, h.fault]; exact hrun
  obtain ⟨-, -, hlast, hfreq, -⟩ := calTimeout_some_fields p w.clk.cur.freqMhz (pollsSpent w s.clk.cur p) hspent
  obtain ⟨hlastSpent, hfreqSpent⟩ := pollsSpent_curPll w s.clk.cur p
  refine ⟨hlast.trans (hlastSpent.trans h.last), hfreq.trans (hfreqSpent.trans ?_)⟩
  rw [h.last, leftPll_eq_none (h.direct _), h.freq, hp]
  by_cases hl : s.lastCalPll = p
  · simp [hl]
  · simp [hl, Ne.symm hl]

theorem OnCrystal.restoreTimedOut_trace {s w : State} (h : OnCrystal s w) {p : PllId} (hp : s.clk.cur.source = .pll p)
    (hcount : (pllAt s p).consumerCount = 0) :
    (restoreTimedOut s w p).trace = w.trace ++ timedOutCalibration s.cfg p false s.clk.cur.sourceFreqMhz := by
  have hleave : leaveEvents w s.clk.cur = [] := by simp [leaveEvents, h.direct, leftPll_eq_none (h.direct _)]
  rw [restoreTimedOut, calTimeout_trace, pollsSpent_trace _ _ hp, hleave, h.cfg, h.source_dropped hp hcount, List.append_nil]

/-- Where every poll of the restore answers 0, exactly the allowed number of polls ends the op in HALT (R93, R157). -/
theorem AtRestore.timesOut {s w : State} {r : SleepResult} {z : SleepSeq} (h : AtRestore s r (endedSlp z) w)
    (hready : Ready s) (hcfg : cfgOk s.cfg = true) (hk : validConfig s.cfg s.clk.cur = true) {p : PllId}
    (hp : s.clk.cur.source = .pll p) (hcount : (pllAt s p).consumerCount = 0) :
    ∃ x u, RunsTo true (advance restoreScript w) x ∧
      runSequencer (List.replicate s.cfg.calTimeoutPolls false) x = u ∧
      RestoreTimedOut s p u ∧ u.slp = endedSlp z ∧
      u.trace = w.trace ++ timedOutCalibration s.cfg p false s.clk.cur.sourceFreqMhz := by
  have hrunning := h.running hready
  have hq : p.toNat < 8 := by simpa [sourceHeld, hp] using sourceHeld_of_valid hcfg hk
  have hreconf : needsReconf w s.clk.cur = true := by
    rw [needsReconf_iff hp, h.clock.source_dropped hp hcount]
    exact (sourceFreq_ne_zero hk).symm
  have hpolls : 1 ≤ w.cfg.calTimeoutPolls := by rw [h.clock.cfg]; exact calTimeoutPolls_pos hcfg
  have hops := pollsSpent_sameOps w s.clk.cur p
  have hspent : (pollsSpent w s.clk.cur p).fault.halted = false := by rw [hops.fault, h.clock.fault]; exact hready.1
  obtain ⟨hfault, -, -, -, hcfgSame, hslpSame, henvSame⟩ :=
    calTimeout_some_fields p w.clk.cur.freqMhz (pollsSpent w s.clk.cur p) hspent
  obtain ⟨hreleased, hended⟩ := calTimeout_some_ended (hops.mbox.trans h.mbox) (hops.seq.trans h.seq) p w.clk.cur.freqMhz
  have hclk := h.clock.restoreTimedOut_clk hcfg hready.1 p
  obtain ⟨hself, hothers⟩ := h.clock.restoreTimedOut_plls hp hq hcount
  obtain ⟨hlast, hfreq⟩ := h.clock.restoreTimedOut_curPll hready.1 hp
  have hslp : (restoreTimedOut s w p).slp = endedSlp z := hslpSame.trans (hops.slp.trans h.slp)
  have hcalibrates := RunsTo.firstPoll hrunning hp hreconf [.finish .sleepResult]
  refine ⟨_, restoreTimedOut s w p, RunsTo.restoreSaved hrunning ((congrArg _ h.slp).trans h.saved) hcalibrates, ?_, ?_, hslp,
    h.clock.restoreTimedOut_trace hp hcount⟩
  · rw [← h.clock.cfg]
    exact runSequencer_pollsSpent hrunning hq hpolls _ _
  · refine ⟨hfault, hreleased, hended, ?_, ?_, ?_, ?_, ?_, ?_, ?_, ?_, ?_, ?_, hself, hothers, hlast, hfreq,
      hcfgSame.trans (hops.cfg.trans h.clock.cfg), henvSame.trans (hops.env.trans h.clock.env)⟩
    · rw [hslp]; rfl
    · rw [hslp]; rfl
    · rw [hslp]; exact h.saved
    · rw [hclk]; exact h.clock.cur
    · rw [hclk]; exact h.clock.state
    · rw [hclk]; exact h.clock.mux
    · rw [hclk]; exact h.clock.cpuDiv
    · rw [hclk]; exact h.clock.busDivs
    · rw [hclk]; exact h.clock.ticks
    · rw [hclk]; exact h.clock.counter

/-- Settles O47: the run to the restore, turned back or woken, and the restore that times out. -/
theorem enterSleepRestoreTimesOut : Obligations.EnterSleepRestoreTimesOut := by
  intro deep wk rj mf pd adj s p b hcfg hready hmode hclk hfits hvalid hp hcount hb
  obtain rfl : b = crystalBudget mf pd adj s := hb
  refine ⟨_, exec_enterSleep hready deep wk rj hmode hclk hfits, enterSleep_accepted deep wk rj mf pd adj s,
    fun hreject => ?_, fun hreject hwake => ?_⟩
  · have hat := sleepEnded_atRestore deep wk rj mf pd adj (s := s) (r := .rejected)
      (z := turnedBack deep wk rj (programmedSlp mf pd (crystalBudget mf pd adj s) s)) rfl rfl
    obtain ⟨x, u, hrestores, hpolls, htimedOut, hslp, htrace⟩ := hat.timesOut hready hcfg hvalid hp hcount
    obtain ⟨m, hm⟩ := (RunsTo.turnedBack hready deep wk mf pd adj hreject).trans hrestores
    refine ⟨m + 1, u, ?_, htimedOut, ?_, ?_, ?_, ?_⟩
    · rw [runSequencer_append, hm, hpolls]
    · rw [hslp]; rfl
    · rw [hslp]; rfl
    · rw [hslp]; rfl
    · rw [htrace, sleepEnded_trace deep wk rj mf pd adj (intStatusWord_rejected rfl rfl), hslp]
      rfl
  · have hat := sleepEnded_atRestore deep wk rj mf pd adj (s := s) (r := .woken)
      (z := wokenSlp (asleepSlp deep wk rj mf pd adj s)) rfl rfl
    obtain ⟨x, u, ⟨n, hn⟩, hpolls, htimedOut, hslp, htrace⟩ := hat.timesOut hready hcfg hvalid hp hcount
    obtain ⟨m, hm⟩ := RunsTo.asleep hready deep wk mf pd adj hreject
    have hrun := runActions_wakesToRestore hready deep rj mf pd adj hwake
    refine ⟨m + 1, 3 + (n + 1), asleepState deep wk rj mf pd adj s, u, hm.symm, rfl, rfl, ?_, htimedOut, ?_, ?_, ?_, ?_, ?_⟩
    · have htoPolls : runActions (wakeSchedule (crystalBudget mf pd adj s) ++
          List.replicate (3 + (n + 1)) (.sequencer true)) (asleepState deep wk rj mf pd adj s) = .next x := by
        rw [List.replicate_add, ← List.append_assoc, runActions_append hrun, runActions_replicate_sequencer, hn]
      rw [runActions_append htoPolls, runActions_replicate_sequencer, hpolls]
    · rw [hslp]; rfl
    · rw [hslp]; rfl
    · rw [hslp]; rfl
    · rw [hslp]; exact asleepState_trace deep wk rj mf pd adj s
    · rw [htrace, sleepEnded_trace deep wk rj mf pd adj (intStatusWord_woken rfl rfl), asleepState_trace]

end Sys2Proof.Machine
end

section
/-! Steps, fatal faults and HALT (60_exceptions.md R156, R157, R162, R171): which action a step takes, what the fault of an
immediate op does to another core's running op, and what an action can still change once the block is in HALT. -/

namespace Sys2Proof.Machine

/-! ### The action a step takes -/

theorem step_of_agenda_cons {s : State} {a : Action} {rest : List Action} (h : s.env.agenda = a :: rest) :
    step s = act a (setEnv { s.env with agenda := rest } s) := by
  simp [step, nextAction, choiceTaken, h]

theorem step_of_agenda_nil {s : State} (h : s.env.agenda = []) :
    step s = act (Config.arbiter s.env.choices) (setEnv { s.env with choices := s.env.choices + 1 } s) := by
  simp [step, nextAction, choiceTaken, h]

/-- A legal pending command is accepted by the `exec` of its op, with its core picked (30_encoding.md R72). -/
theorem act_accept_legal {s : State} {c : Core} {i : Instr} (hc : c.val < s.cfg.nCores)
    (hpending : (mboxAt s c).pending = true) (hword : decode (mboxAt s c).cmd (mboxAt s c).arg = .ok i) :
    act (.accept c) s = exec i (setEnv { s.env with picked := c } s) := by
  simp [act, acceptCommand, hc, hpending, hword]

/-- Settles O4: the two ways of taking a choice, and `act_accept_legal` in the state with the choice taken, whose chip and
mailboxes are those of the state before. -/
theorem stepRunsTheDecodedOp : Obligations.StepRunsTheDecodedOp := by
  refine ⟨fun s a rest h => step_of_agenda_cons h, fun s h => step_of_agenda_nil h,
    fun s c i hnext hc hpending hword => ?_⟩
  obtain ⟨e, he⟩ := choiceTaken_eq s
  rw [step, hnext, he]
  exact act_accept_legal (s := setEnv e s) hc hpending hword

/-! ### Another core's op, abandoned -/

/-- Where another core's op runs, the fault of an immediate op releases the sequencer (R156 step 4). -/
theorem raiseFatal_immediate_seq {c : Core} {s : State} (hbusy : s.seq.busy = true) (howner : s.seq.owner ≠ c)
    (k : StatusCode) (info : BitVec 16) :
    (raiseFatal c false k info s).seq = { s.seq with busy := false, script := [], result := none } := by
  simp [raiseFatal, abandonOther, hbusy, howner]

/-- The op that another core has running ends `HALTED`, its `RES` as they were (R156 step 4). -/
theorem mboxAt_raiseFatal_owner {c : Core} {s : State} (hbusy : s.seq.busy = true) (howner : s.seq.owner ≠ c)
    (k : StatusCode) (info : BitVec 16) :
    mboxAt (raiseFatal c false k info s) s.seq.owner =
      { mboxAt s s.seq.owner with pending := false, running := false, done := true, code := codeByte .halted } := by
  rw [mboxAt_raiseFatal_immediate, if_pos ⟨⟨hbusy, howner⟩, rfl⟩, mboxAt_endOp_ne howner]

theorem mboxAt_raiseFatal_bystander {c d : Core} {s : State} (hissuer : d ≠ c) (howner : d ≠ s.seq.owner)
    (k : StatusCode) (info : BitVec 16) : mboxAt (raiseFatal c false k info s) d = mboxAt s d := by
  rw [mboxAt_raiseFatal_immediate, if_neg fun h => howner h.2, mboxAt_endOp_ne hissuer]

/-- Settles O31: the op is one `raiseFatal` of an immediate op, read mailbox by mailbox. -/
theorem fatalFaultAbandonsTheRunningOp : Obligations.FatalFaultAbandonsTheRunningOp := by
  intro id s hrun hid hzero hbusy howner
  have hexec := exec_pllRemoveConsumer hrun (of_decide_eq_true hid)
  rw [if_pos hzero] at hexec
  have hseq := raiseFatal_immediate_seq hbusy howner .consumerAccountingViolation (pllFaultInfo id 2)
  have hmbox := mboxAt_raiseFatal_owner hbusy howner .consumerAccountingViolation (pllFaultInfo id 2)
  refine ⟨_, hexec, ?_, ?_, ?_, ?_, ?_, ?_, fun d hissuer hother => mboxAt_raiseFatal_bystander hissuer hother _ _,
    raiseFatal_clk .., raiseFatal_plls .., raiseFatal_slp .., raiseFatal_trace ..⟩
  · rw [raiseFatal_fault, hrun]; rfl
  · rw [hseq]
  · rw [hseq]
  · rw [hmbox]; exact ⟨rfl, rfl, rfl, rfl, rfl, rfl⟩
  · rw [hmbox]
  · rw [mboxAt_raiseFatal_issuer, mboxAt_endOp_self]; exact ⟨rfl, rfl, rfl, rfl, rfl, rfl⟩

/-! ### HALT -/

/-- What may differ between two states of the block in HALT: mailboxes but for `RES`, the host's own registers, the counter, the
wake sequence and the environment (R156, R162). -/
def FrozenInHalt (s t : State) : Prop :=
  t = { s with
    mbox := t.mbox, env := t.env, clk := { s.clk with cycleCounter := t.clk.cycleCounter },
    slp := { s.slp with
      pmt := t.slp.pmt, bkp := t.slp.bkp, lpClkFreqHz := t.slp.lpClkFreqHz, wtPhase := t.slp.wtPhase,
      wtCount := t.slp.wtCount, asleep := t.slp.asleep, wakeupOccurred := t.slp.wakeupOccurred } } ∧
  ∀ c, (mboxAt t c).res = (mboxAt s c).res

theorem FrozenInHalt.refl (s : State) : FrozenInHalt s s := ⟨rfl, fun _ => rfl⟩

theorem endOp_frozenInHalt (c : Core) (k : StatusCode) (s : State) : FrozenInHalt s (endOp c k s) := by
  refine ⟨rfl, fun d => ?_⟩
  by_cases hd : d = c
  · subst hd; rw [mboxAt_endOp_self]
  · rw [mboxAt_endOp_ne hd]

/-- `RES` is read only for the host (10_state.md R36). -/
theorem mailboxWrite_res (m : Mailbox) (r : Nat) (v : Word) : (mailboxWrite m r v).res = m.res := by
  unfold mailboxWrite issue
  split_ifs <;> rfl

theorem writeReg_frozenInHalt (off : Nat) (v : Word) (s : State) : FrozenInHalt s (writeReg off v s) := by
  refine ⟨?_, fun d => ?_⟩
  · obtain ⟨mb, z, hw, p, b, l, rfl⟩ := writeReg_frame off v s
    rw [hw]
  · obtain hsame | ⟨r, hwrite⟩ := mboxAt_writeReg off v s d
    · rw [hsame]
    · rw [hwrite, mailboxWrite_res]

/-- In HALT an acceptance ends the command, `HALTED` or `ILLEGAL_CMD`, or finds none (30_encoding.md R72). -/
theorem acceptCommand_frozenInHalt {c : Core} {s t : State} (hhalt : s.fault.halted = true)
    (h : acceptCommand c s = .next t) : FrozenInHalt s t := by
  obtain rfl | ⟨i, hexec⟩ | rfl := acceptCommand_cases h
  · exact .refl t
  · cases (exec_halted i (s := setEnv { s.env with picked := c } s) hhalt).symm.trans hexec
    exact endOp_frozenInHalt c .halted (setEnv { s.env with picked := c } s)
  · exact endOp_frozenInHalt c .illegalCmd (setEnv { s.env with picked := c } s)

/-- The sequencer stands still in HALT (R156). -/
theorem sequencerStep_halted {s : State} (hhalt : s.fault.halted = true) (a : Bool) : sequencerStep a s = s := by
  obtain hsame | ⟨m, rest, -, hrun, -⟩ := sequencerStep_cases a s
  · exact hsame
  · exact absurd (hhalt.symm.trans hrun) Bool.noConfusion

theorem act_timerAction_frozenInHalt {a : Action} (ha : a ∈ timerActions) {s t : State} (h : act a s = .next t) :
    FrozenInHalt s t := by
  obtain hsame | ⟨-, _, _, _, _, hstep⟩ := act_timerAction ha s
  · cases hsame.symm.trans h; exact .refl s
  · cases hstep.symm.trans h; exact ⟨rfl, fun _ => rfl⟩

theorem act_frozenInHalt {s t : State} {a : Action} (hhalt : s.fault.halted = true) (ha : a ≠ .reset)
    (h : act a s = .next t) : FrozenInHalt s t := by
  cases a with
  | hostWrite addr bytes v =>
    obtain hin | hout := Nat.lt_or_ge (windowOffset s.cfg addr) 0x1000
    · cases (act_hostWrite_inside hin bytes v).symm.trans h
      split
      · exact writeReg_frozenInHalt _ v s
      · exact .refl s
    · cases (act_hostWrite_outside hout bytes v).symm.trans h
  | hostRead addr bytes =>
    obtain hin | hout := Nat.lt_or_ge (windowOffset s.cfg addr) 0x1000
    · cases (act_hostRead_inside hin bytes).symm.trans h
      exact ⟨rfl, fun _ => rfl⟩
    · cases (act_hostRead_outside hout bytes).symm.trans h
  | accept c => exact acceptCommand_frozenInHalt hhalt h
  | sequencer answer =>
    cases h
    rw [sequencerStep_halted hhalt]
    exact .refl s
  | wakeTrigger | lpTick | lpDone | hpTick | hpDone => exact act_timerAction_frozenInHalt (by simp [timerActions]) h
  | setWakeLines | setRejectLines | addCycles => cases h; exact ⟨rfl, fun _ => rfl⟩
  | reset => exact absurd rfl ha

/-- Settles O53: taking a choice touches the environment only, and the action then taken is `act_frozenInHalt`. -/
theorem haltFreezesTheBlock : Obligations.HaltFreezesTheBlock := by
  intro s t hhalt hstep hnext
  obtain ⟨e, he⟩ := choiceTaken_eq s
  rw [step, he] at hstep
  exact act_frozenInHalt (s := setEnv e s) hhalt hnext hstep

end Sys2Proof.Machine
end

section
/-! Rescaling there and back (70_reset_and_hazards.md R195), the reset values (R181) and the invariants right after RESET. -/

namespace Sys2Proof.Machine

/-! ### Two rescales -/

theorem le_ceilDiv_mul (a : Nat) {b : Nat} (hb : 1 ≤ b) : a ≤ ceilDiv a b * b := by
  have hlt : a + (b - 1) < ceilDiv a b * b + b := Nat.lt_div_mul_add hb
  omega

/-- Scaling a count by `n / m` and back by `m / n`, rounding down each time, never ends above it. -/
theorem scaled_back_le {n : Nat} (hn : 1 ≤ n) (m c : Nat) : c * n / m * m / n ≤ c :=
  calc c * n / m * m / n ≤ c * n / n := Nat.div_le_div_right (Nat.div_mul_le_self _ _)
    _ = c := Nat.mul_div_cancel _ hn

/-- The loss of the first division is less than `m`, so at most `ceil(m / n)` counts once scaled back, and that of the second is
less than one count. -/
theorem le_scaled_back {m n : Nat} (hm : 1 ≤ m) (hn : 1 ≤ n) (c : Nat) :
    c ≤ c * n / m * m / n + ceilDiv m n := by
  have hthere : c * n < c * n / m * m + m := Nat.lt_div_mul_add hm
  have hback : c * n / m * m < c * n / m * m / n * n + n := Nat.lt_div_mul_add hn
  have hceil : m ≤ ceilDiv m n * n := le_ceilDiv_mul m hn
  have hcounts : c * n < (c * n / m * m / n + ceilDiv m n + 1) * n :=
    calc c * n < c * n / m * m / n * n + ceilDiv m n * n + n := by omega
      _ = (c * n / m * m / n + ceilDiv m n + 1) * n := by ring
  exact Nat.lt_succ_iff.mp (Nat.lt_of_mul_lt_mul_right hcounts)

/-- With no wrap on the way there, there is none on the way back: the result is at most the start. -/
theorem toNat_rescale_rescale {f1 f2 : Word} (h1 : 1 ≤ f1.toNat) (h2 : 1 ≤ f2.toNat) {c : Word}
    (hfits : c.toNat * f2.toNat / f1.toNat < 2 ^ 32) :
    (rescale (rescale c f1 f2) f2 f1).toNat = c.toNat * f2.toNat / f1.toNat * f1.toNat / f2.toNat := by
  rw [toNat_rescale h2, toNat_rescale h1, Nat.mod_eq_of_lt hfits,
    Nat.mod_eq_of_lt (Nat.lt_of_le_of_lt (scaled_back_le h2 _ _) c.isLt)]

/-- Settles O19: two rescales are two exact floor divisions. -/
theorem rescaleRoundTrip : Obligations.RescaleRoundTrip := by
  intro c f1 f2 h1 h2 hfits
  rw [toNat_rescale_rescale h1 h2 hfits]
  exact ⟨scaled_back_le h2 _ _, le_scaled_back h1 h2 _⟩

/-! ### RESET -/

/-- Settles O54: the mailboxes and the PLLs are read through `mboxAt_resetOf` and `pllAt_resetOf`; every other element is a field
of the reset state. -/
theorem resetValues : Obligations.ResetValues := by
  refine ⟨fun _ => rfl, ?_⟩
  rintro cfg _ rfl
  refine ⟨mboxAt_resetOf cfg, rfl, rfl, rfl, rfl, rfl, rfl, rfl, rfl, rfl, rfl, pllAt_resetOf cfg, ?_⟩
  and_intros <;> rfl

/-- Settles O59: one lemma per invariant. -/
theorem invariantsHoldAtReset : Obligations.InvariantsHoldAtReset := fun cfg =>
  ⟨clockStateInv_resetOf cfg, mailboxInv_resetOf cfg, sleepBitsInv_resetOf cfg, calibrationInv_resetOf, busInv_resetOf⟩

end Sys2Proof.Machine
end
